-- ==== Sys2Proof/Word.lean ====
section
/-!
DEFINITION. The data words of the engine: bytes, and line levels.
-/

namespace Sys2Proof

/-- A byte; bit 0 is the least significant bit (R8). -/
abbrev Byte := BitVec 8

/-- A line level: `true` is High, written 1, and `false` is Low, written 0 (R9, D1). -/
abbrev Level := Bool

end Sys2Proof
end

