-- ==== Sys2Proof/Config.lean ====
section
/-!
DEFINITION. The parameter record PARAMS of the spec (R7), the values R7 gives this hardware, and the free values the
spec leaves open.
-/

namespace Sys2Proof

/-- The parameters whose value changes behaviour (R7). `State` holds one record of them, which no step writes
(R43; log 2), so a claim about every state is a claim about every value of them. -/
structure Params where
  /-- `T_HALF`: the half-period of Clock (R102). -/
  tHalf : Nat
  /-- `T_BYTE`: the inter-byte settle delay (R103). -/
  tByte : Nat
  /-- `T_ATT`: the settle delay after an Attention edge (R112, R118). -/
  tAtt : Nat
  /-- `BUF_CAP`, at least 33 (R51, R232). -/
  bufCap : { n : Nat // 33 ≤ n }
  /-- `CMD_CAP`, at least 8 (R25). -/
  cmdCap : { n : Nat // 8 ≤ n }
  /-- `POLL_CMD`, a byte list whose first byte is 0x42 (R82), short enough for SEND to accept it (R77, R121). -/
  pollCmd : { cmd : List Byte // cmd.head? = some 0x42 ∧ cmd.length ≤ cmdCap.val }
  /-- `AF_DIGITAL` (R85). -/
  afDigital : Byte
  /-- `AF_ANALOG` (R85). -/
  afAnalog : Byte
  /-- `LF_UNLOCK` (R85). -/
  lfUnlock : Byte
  /-- `LF_LOCK` (R85). -/
  lfLock : Byte
  /-- `PRESS_EN(s)`, one command list per slot (R86). -/
  pressEn : Vector (List Byte) 12
  /-- `PRESS_CFG`, one command list (R87). -/
  pressCfg : List Byte
  /-- `RESYNC_COUNT` (R134). -/
  resyncCount : Nat
  /-- `INIT_SYNC_COUNT` (R167). -/
  initSyncCount : Nat
  /-- `RETRY_CAP`: `none` is the reference behaviour (R137). -/
  retryCap : Option Nat
  /-- `STRICT_MODE` (R160). -/
  strictMode : Bool
  /-- `CHANGE_DETECT` (R172). -/
  changeDetect : Bool
  /-- `PRESS_MAP`: the button index of each pressure slot (R147). -/
  pressMap : Vector (Fin 16) 12
  deriving DecidableEq, Repr

/-- A command list SEND accepts: 1 to `CMD_CAP` bytes (R121). -/
def legalCommand (p : Params) (cmd : List Byte) : Bool :=
  decide (1 ≤ cmd.length) && decide (cmd.length ≤ p.cmdCap.val)

/-- The constraints R7 puts on the parameters, but for those that stand in the types of `Params`. -/
structure Params.Wf (p : Params) : Prop where
  flagsDiffer : p.afDigital ≠ p.afAnalog
  locksDiffer : p.lfUnlock ≠ p.lfLock
  pressEnLegal : ∀ k : Fin 12, legalCommand p p.pressEn[k] = true
  pressCfgLegal : legalCommand p p.pressCfg = true
  resyncPositive : 1 ≤ p.resyncCount
  initSyncPositive : 1 ≤ p.initSyncCount
  capPositive : ∀ k, p.retryCap = some k → 1 ≤ k
  mapInjective : ∀ a b : Fin 12, p.pressMap[a] = p.pressMap[b] → a = b

/-! The open parameters (D2, D7, D8) are constants without a body: no proof can learn their value (log 4). -/

/-- OPEN: `T_HALF` (D2). -/
opaque Config.tHalf : Nat
/-- OPEN: `T_BYTE` (D2). -/
opaque Config.tByte : Nat
/-- OPEN: `T_ATT` (D2). -/
opaque Config.tAtt : Nat
/-- OPEN: the first byte of `PRESS_EN(s)` (D7). -/
opaque Config.pressEnHead : Fin 12 → Byte
/-- OPEN: the bytes of `PRESS_EN(s)` after the first (D7). -/
opaque Config.pressEnTail : Fin 12 → List Byte
/-- OPEN: the first byte of `PRESS_CFG` (D7). -/
opaque Config.pressCfgHead : Byte
/-- OPEN: the bytes of `PRESS_CFG` after the first (D7). -/
opaque Config.pressCfgTail : List Byte
/-- OPEN: `RESYNC_COUNT` less one (D8). -/
opaque Config.resyncExtra : Nat
/-- OPEN: `INIT_SYNC_COUNT` less one (D8). -/
opaque Config.initSyncExtra : Nat

/-- FREE VALUE: the byte that index `i` of `BUF` holds before anything has written it, after the `epoch`-th
hardware reset (R46, R213, U6a, P8; log 10, 11). -/
opaque Config.powerOnByte : (epoch i : Nat) → Byte

/-- `CMD_CAP` = 32, the value R7 gives this hardware (D4; log 3). -/
def Config.cmdCap : Nat := 32

/-- `PRESS_EN(s)`: any list of 1 to `CMD_CAP` bytes (R86). -/
def Config.pressEnCommand (s : Fin 12) : List Byte :=
  (Config.pressEnHead s :: Config.pressEnTail s).take Config.cmdCap

/-- `PRESS_CFG`: any list of 1 to `CMD_CAP` bytes (R87). -/
def Config.pressCfgCommand : List Byte :=
  (Config.pressCfgHead :: Config.pressCfgTail).take Config.cmdCap

/-- The default `PRESS_MAP` of R147 (PRESUMED by the spec itself, D15; log 5). -/
def Config.defaultPressMap : Vector (Fin 16) 12 := #v[5, 7, 4, 6, 12, 13, 14, 15, 10, 11, 8, 9]

/-- The parameter record the engine is built with: the values R7 gives, the OPEN ones left free (log 3, 4, 5). -/
def Config.params : Params where
  tHalf := Config.tHalf
  tByte := Config.tByte
  tAtt := Config.tAtt
  bufCap := ⟨33, by decide⟩
  cmdCap := ⟨Config.cmdCap, by decide⟩
  pollCmd := ⟨[0x42], by decide⟩
  afDigital := 0x00
  afAnalog := 0x01
  lfUnlock := 0x00
  lfLock := 0x03
  pressEn := Vector.ofFn Config.pressEnCommand
  pressCfg := Config.pressCfgCommand
  resyncCount := Config.resyncExtra + 1
  initSyncCount := Config.initSyncExtra + 1
  retryCap := none
  strictMode := false
  changeDetect := true
  pressMap := Config.defaultPressMap

end Sys2Proof
end

