-- ==== Sys2Proof/Syntax.lean ====
section
/-!
DEFINITION. The instructions of spec/opcode_table.json, one constructor per row, and the four encoding levels of R70.
-/

namespace Sys2Proof

/-- A SET_MODE target (R41, R127). The fourth code, 3, is reserved and no SET_MODE carries it (R76). -/
inductive Target where
  | digital
  | analog
  | pressure
  deriving DecidableEq, Repr

/-- What `mode_of` reads from a mode byte (R88). -/
inductive ReportedMode where
  | digital
  | analog
  | pressure
  | config
  | unrecognised (b : Byte)
  deriving DecidableEq, Repr

/-- The levels at which bits select an instruction (R70): the host command word, the wire command, the mode byte. -/
inductive Format where
  | hostCommand
  | wireCommand
  | modeByte
  deriving DecidableEq, Repr

/-- One constructor per row of the opcode table, in the table's order. -/
inductive Instr where
  /-- HOSTCMD, `OPC` = 0 (R165). -/
  | init
  /-- HOSTCMD, `OPC` = 1 (R169). -/
  | poll
  /-- HOSTCMD, `OPC` = 2 (R175). -/
  | setMode (target : Target) (lock : Bool)
  /-- HOSTCMD, a reserved word `w` (R76). -/
  | hostReserved (w : Byte)
  /-- WIRE, the no-op poll (R82). -/
  | pollCmd
  /-- WIRE, enter configuration (R83). -/
  | cfgEnter
  /-- WIRE, exit configuration (R84). -/
  | cfgExit
  /-- WIRE, set mode, with its two flag bytes (R85). -/
  | setModeCmd (analogFlag lockFlag : Byte)
  /-- WIRE, enable pressure for a slot (R86). -/
  | pressEn (slot : Fin 12)
  /-- WIRE, pressure configuration (R87). -/
  | pressCfg
  /-- MODEBYTE 0x41 (R150). -/
  | modeDigital
  /-- MODEBYTE 0x73 (R151). -/
  | modeAnalog
  /-- MODEBYTE 0x79 (R153 to R156). -/
  | modePressure
  /-- MODEBYTE 0xF3 (R158). -/
  | modeConfig
  /-- MODEBYTE, any other byte `b` (R157). -/
  | modeOther (b : Byte)
  /-- TRANSACTION: one Attention window carrying the latched command (R72). -/
  | frame
  /-- MICRO: one byte each way (R101). -/
  | exchange (b : Byte)
  /-- MICRO: latch a command list and send it in one transaction (R111). -/
  | send (cmd : List Byte)
  /-- MICRO: decode the buffer by its mode byte (R148). -/
  | decode
  /-- MICRO: the handshake of SET_MODE (R128). -/
  | negotiate
  deriving DecidableEq, Repr

end Sys2Proof
end

