-- ==== Sys2Proof/WellFormed.lean ====
section
/-!
DEFINITION. Which instructions the spec allows to be written: the operand constraints of the opcode table.
-/

namespace Sys2Proof

/-- A host command word that encodes no operation (R76): a bit of 7:5 set, or `OPC` = 3, or `OPC` = 2 with
`TARGET` = 3. -/
def reservedHostWord (w : Byte) : Bool :=
  w.extractLsb' 5 3 != 0 || w.extractLsb' 0 2 == 3 ||
    (w.extractLsb' 0 2 == 2 && w.extractLsb' 2 2 == 3)

/-- A mode byte outside the four the spec lists (R88, R91). -/
def otherModeByte (b : Byte) : Bool :=
  b != 0x41 && b != 0x73 && b != 0x79 && b != 0xF3

/-- The operand constraints: a reserved word is reserved (R76), MODE_OTHER is none of the four listed bytes
(R157), SEND takes 1 to `CMD_CAP` bytes (R121), where `CMD_CAP` is a parameter. Every other operand is in range by its
type. -/
def Instr.wf (p : Params) : Instr → Bool
  | .hostReserved w => reservedHostWord w
  | .modeOther b => otherModeByte b
  | .send cmd => legalCommand p cmd
  | .init => true
  | .poll => true
  | .setMode _ _ => true
  | .pollCmd => true
  | .cfgEnter => true
  | .cfgExit => true
  | .setModeCmd _ _ => true
  | .pressEn _ => true
  | .pressCfg => true
  | .modeDigital => true
  | .modeAnalog => true
  | .modePressure => true
  | .modeConfig => true
  | .frame => true
  | .exchange _ => true
  | .decode => true
  | .negotiate => true

end Sys2Proof
end

