-- ==== Sys2Proof/Decode.lean ====
section
/-!
DEFINITION. Decoding at the spec's levels (R70): the host command word, the wire command, the mode byte;
the encoder written from the same tables; and the reading of a word as spec/opcode_table.json numbers its bits.
-/

namespace Sys2Proof

/-- Why bytes are no instruction of their level. -/
inductive DecodeError where
  /-- No byte at all. -/
  | empty
  /-- More bytes than the level's word has: one for HOSTCMD and MODEBYTE, `CMD_CAP` for WIRE. -/
  | tooLong
  /-- A wire command whose bytes are none of the six (R81). -/
  | unknownCommand
  deriving DecidableEq, Repr

/-! ### Command bytes (R81 to R87) -/

/-- POLL_CMD: a parameter whose first byte is 0x42 (R7, R82). -/
def pollBytes (p : Params) : List Byte := p.pollCmd.val

/-- CFG_ENTER (R83). -/
def cfgEnterBytes : List Byte := [0x43, 0x00, 0x01]

/-- CFG_EXIT (R84). -/
def cfgExitBytes : List Byte := [0x43, 0x00, 0x00, 0x5A, 0x5A, 0x5A, 0x5A, 0x5A]

/-- SET_MODE_CMD with its flag bytes (R85). -/
def setModeBytes (analogFlag lockFlag : Byte) : List Byte := [0x44, 0x00, analogFlag, lockFlag]

/-- PRESS_EN(s): a parameter (R86). -/
def pressEnBytes (p : Params) (s : Fin 12) : List Byte := p.pressEn[s]

/-- PRESS_CFG: a parameter (R87). -/
def pressCfgBytes (p : Params) : List Byte := p.pressCfg

/-- The slots in the order R131 visits them. -/
def slotOrder : List (Fin 12) := [0, 1, 2, 3, 4, 5, 6, 7, 8, 9, 10, 11]

/-! ### Mode bytes (R88, R89) -/

/-- `mode_of(b)` (R88); the match is on all 8 bits. -/
def modeOf (b : Byte) : ReportedMode :=
  if b = 0x41 then .digital
  else if b = 0x73 then .analog
  else if b = 0x79 then .pressure
  else if b = 0xF3 then .config
  else .unrecognised b

/-- `mode_byte(t)` (R89). -/
def modeByteOf : Target → Byte
  | .digital => 0x41
  | .analog => 0x73
  | .pressure => 0x79

/-! ### Decoders, one per level -/

/-- The `TARGET` field of a host command word (R74); 3 is reserved. -/
def targetOfCode (c : BitVec 2) : Option Target :=
  if c = 0 then some .digital else if c = 1 then some .analog else if c = 2 then some .pressure else none

/-- The code of a target in the `TARGET` field (R74). -/
def codeOfTarget : Target → BitVec 2
  | .digital => 0
  | .analog => 1
  | .pressure => 2

/-- Host decode (R75, R76): total on every byte. -/
def decodeHost (w : Byte) : Instr :=
  if w.extractLsb' 5 3 ≠ 0 then .hostReserved w
  else if w.extractLsb' 0 2 = 0 then .init
  else if w.extractLsb' 0 2 = 1 then .poll
  else if w.extractLsb' 0 2 = 2 then
    match targetOfCode (w.extractLsb' 2 2) with
    | some t => .setMode t (w.getLsbD 4)
    | none => .hostReserved w
  else .hostReserved w

/-- The row of the opcode table a mode byte selects (R88, R157): total on every byte. -/
def decodeMode (b : Byte) : Instr :=
  match modeOf b with
  | .digital => .modeDigital
  | .analog => .modeAnalog
  | .pressure => .modePressure
  | .config => .modeConfig
  | .unrecognised b => .modeOther b

/-- The three wire commands whose bytes no parameter gives (R83 to R85). -/
def decodeFixedWire (bs : List Byte) : Option Instr :=
  if bs = cfgEnterBytes then some .cfgEnter
  else if bs = cfgExitBytes then some .cfgExit
  else match bs with
    | [0x44, 0x00, a, l] => some (.setModeCmd a l)
    | _ => none

/-- The three wire commands whose bytes are parameters (R82, R86, R87). -/
def decodeParamWire (p : Params) (bs : List Byte) : Option Instr :=
  if bs = pollBytes p then some .pollCmd
  else if bs = pressCfgBytes p then some .pressCfg
  else (slotOrder.find? fun s => bs == pressEnBytes p s).map .pressEn

/-- The wire command with the bytes `bs` (R81). -/
def decodeWire (p : Params) (bs : List Byte) : Except DecodeError Instr :=
  if bs.length = 0 then .error .empty
  else if p.cmdCap.val < bs.length then .error .tooLong
  else match decodeFixedWire bs with
    | some i => .ok i
    | none => match decodeParamWire p bs with
      | some i => .ok i
      | none => .error .unknownCommand

/-- The instruction that bytes select at a level (R70): total, rejecting by name. -/
def decode (p : Params) (f : Format) (bs : List Byte) : Except DecodeError Instr :=
  match f, bs with
  | .wireCommand, bs => decodeWire p bs
  | _, [] => .error .empty
  | .hostCommand, [w] => .ok (decodeHost w)
  | .modeByte, [b] => .ok (decodeMode b)
  | _, _ :: _ :: _ => .error .tooLong

/-! ### The encoder -/

/-- The host command word of SET_MODE (R74): bits 7:5 zero, `LOCK`, `TARGET`, `OPC` = 2. -/
def setModeWord (t : Target) (l : Bool) : Byte :=
  (0 : BitVec 3) ++ BitVec.ofBool l ++ codeOfTarget t ++ (2 : BitVec 2)

/-- The level and bytes of an instruction; `none` for the rows the spec gives no encoding (FRAME and the
micro-operations). Fields the spec ignores are written zero. -/
def encode (p : Params) : Instr → Option (Format × List Byte)
  | .init => some (.hostCommand, [0x00])
  | .poll => some (.hostCommand, [0x01])
  | .setMode t l => some (.hostCommand, [setModeWord t l])
  | .hostReserved w => some (.hostCommand, [w])
  | .pollCmd => some (.wireCommand, pollBytes p)
  | .cfgEnter => some (.wireCommand, cfgEnterBytes)
  | .cfgExit => some (.wireCommand, cfgExitBytes)
  | .setModeCmd a l => some (.wireCommand, setModeBytes a l)
  | .pressEn s => some (.wireCommand, pressEnBytes p s)
  | .pressCfg => some (.wireCommand, pressCfgBytes p)
  | .modeDigital => some (.modeByte, [0x41])
  | .modeAnalog => some (.modeByte, [0x73])
  | .modePressure => some (.modeByte, [0x79])
  | .modeConfig => some (.modeByte, [0xF3])
  | .modeOther b => some (.modeByte, [b])
  | .frame => none
  | .exchange _ => none
  | .send _ => none
  | .decode => none
  | .negotiate => none

/-- The parameters give the pressure commands bytes of their own: no two of them agree and none agrees with
another wire command. The spec does not demand it (R86, R87); without it bytes do not name one command. -/
def Params.commandsDistinct (p : Params) : Bool :=
  (decodeFixedWire p.pressCfg).isNone && p.pressCfg != p.pollCmd.val &&
    slotOrder.all fun s =>
      (decodeFixedWire p.pressEn[s]).isNone && p.pressEn[s] != p.pollCmd.val && p.pressEn[s] != p.pressCfg &&
        slotOrder.all fun r => r == s || p.pressEn[r] != p.pressEn[s]

/-! ### Words as the opcode table numbers them (log 19) -/

/-- The `nbits / 8` bytes of `w`, the most significant first: the order in which the table's match numbers
write a row's bytes. -/
def tableBytes (nbits w : Nat) : List Byte :=
  (List.range' 1 (nbits / 8)).map fun k => BitVec.ofNat 8 (w >>> (8 * (nbits / 8 - k)))

/-- The instruction of bytes whose level is not said: one byte is POLL_CMD or a listed mode byte where it is
exactly that, else a host command word; several bytes are a wire command. -/
def decodeUnlabelled : List Byte → Option Instr
  | [] => none
  | [b] =>
    if [b] = pollBytes Config.params then some .pollCmd
    else if otherModeByte b then some (decodeHost b)
    else some (decodeMode b)
  | bs => decodeFixedWire bs

/-- The instruction the decoder reads from a table word: the first byte is the most significant one, as the
table's match numbers have it; where that is no instruction, the first byte is taken as the least significant. -/
def decodeTableWord (nbits w : Nat) : Option Instr :=
  match decodeUnlabelled (tableBytes nbits w) with
  | some i => some i
  | none => decodeUnlabelled (tableBytes nbits w).reverse

end Sys2Proof
end

