-- ==== Sys2Proof/Machine/State.lean ====
section
/-!
DEFINITION. The state of the engine: every line, register, latch, flag and counter of 10_state.md, the Raw
Response Buffer, the parameter record, and the model's own inputs and history. Registers are grouped by the
component that owns them.
-/

namespace Sys2Proof.Machine

/-! ### Names of register values -/

/-- Direction of a line; before INIT the engine drives nothing (R46, R212). -/
inductive Direction where
  | unconfigured
  | output
  | input
  deriving DecidableEq, Repr

/-- Pull resistor of a line (R21). -/
inductive Pull where
  | off
  | up
  deriving DecidableEq, Repr

/-- The three lines the engine can write; Data is never written (R11, R21). -/
inductive OutLine where
  | att
  | cmd
  | clk
  deriving DecidableEq, Repr

/-- The kinds of `Wait` (R10, R200). -/
inductive WaitKind where
  | half
  | byte
  | att
  deriving DecidableEq, Repr

/-- The alphabet of pin events (R11). -/
inductive PinEvent where
  /-- `Cfg`. -/
  | cfg
  /-- `Wr(line, l)`. -/
  | wr (line : OutLine) (l : Level)
  /-- `Rd(l)`. -/
  | rd (l : Level)
  /-- `Wait(kind)`. -/
  | wait (kind : WaitKind)
  deriving DecidableEq, Repr

/-- `OP` (R28). -/
inductive Op where
  | none
  | init
  | poll
  | setMode
  deriving DecidableEq, Repr

/-- `NEG` (R29, R126). -/
inductive Neg where
  | idle
  | enteringConfig
  | settingMode
  | exitingConfig
  | resyncing
  | confirmed
  deriving DecidableEq, Repr

/-- `SUBSEQ` (R30). -/
inductive SubSeq where
  | mode
  | en
  | cfg
  deriving DecidableEq, Repr

/-- `FR` (R32, R123). -/
inductive FramerPhase where
  | idle
  | assert
  | hdr0
  | hdr1
  | len
  | body
  | deassert
  deriving DecidableEq, Repr

/-- `BX` (R32, R108). -/
inductive BitPhase where
  | idle
  | drive
  | clkLo
  | holdLo
  | sample
  | clkHi
  | holdHi
  | release
  | settle
  deriving DecidableEq, Repr

/-- The error kinds of `ERR` (R186). Code 3 is never produced, so it has no name. -/
inductive ErrorKind where
  | noError
  | negotiationTimeout
  | unrecognizedMode
  deriving DecidableEq, Repr

/-! ### Register groups -/

/-- A line the engine drives: direction, pull and output latch (R21). -/
structure OutputLine where
  dir : Direction
  pull : Pull
  latch : Level
  deriving DecidableEq, Repr

/-- The Data line: direction and pull; it has no output latch (R21). -/
structure InputLine where
  dir : Direction
  pull : Pull
  deriving DecidableEq, Repr

/-- The four lines: `ATT`, `CMD`, `CLK`, `DAT` (R21). -/
structure Lines where
  att : OutputLine
  cmd : OutputLine
  clk : OutputLine
  dat : InputLine
  deriving DecidableEq, Repr

/-- The Bit Exchange Engine's registers `TX`, `RX`, `BITN`, `BX` (R22 to R24, R32). -/
structure ExchangeRegs where
  tx : Byte
  rx : Byte
  bitn : Fin 8
  bx : BitPhase
  deriving DecidableEq, Repr

/-- The Command Framer's registers `CMDBUF`, `CMDLEN`, `IDX`, `RECVSIZE`, `FR` (R25 to R27, R32). -/
structure FramerRegs where
  /-- `CMD_CAP` bytes (`Sound.bufferSize`). -/
  cmdBuf : List Byte
  cmdLen : Nat
  idx : Nat
  recvSize : Nat
  fr : FramerPhase
  deriving DecidableEq, Repr

/-- The sequencer's registers and operand latches (R28 to R31, R41). -/
structure SequencerRegs where
  op : Op
  neg : Neg
  subseq : SubSeq
  slot : Fin 12
  syncCtr : Nat
  attempt : Nat
  target : Target
  lock : Bool
  deriving DecidableEq, Repr

/-- The public output registers DECODE writes (R33 to R35). -/
structure Outputs where
  pressed : BitVec 16
  intensity : Vector Byte 12
  intValid : Bool
  axis : Vector Byte 4
  axisFresh : Bool
  deriving DecidableEq, Repr

/-- The change-detection cache (R36). -/
structure Cache where
  prevMode : Byte
  prevSlice : Vector Byte 6
  prevValid : Bool
  deriving DecidableEq, Repr

/-- The flags `BUSY`, `INITIALISED`, `CHANGED`, `ERR` (R37 to R40). -/
structure Flags where
  busy : Bool
  initialised : Bool
  changed : Bool
  err : ErrorKind
  deriving DecidableEq, Repr

/-- The inputs of the engine (R13, R14), as data the step reads. -/
structure Inputs where
  /-- The levels the controller will drive at the coming samples of Data, the next one first. Where the list
  has ended nothing drives Data and its pull-up reads High (R13, R199; log 6). -/
  dataIn : List Level
  /-- What the host presents on the request port at the coming steps: a `HOSTCMD` with its strobe, or nothing
  (R74, R183; log 7). -/
  hostIn : List (Option Byte)
  /-- What the host does with the reset input at the coming steps, one entry a step: nothing, or `some n`, the
  input asserted after `n` pin events of that step. Where the list has ended the input is not asserted (R14, R210,
  R213; log 8). -/
  resetIn : List (Option Nat)
  deriving DecidableEq, Repr

/-- `BUF` (R44, R51): the bytes written since the last hardware reset, by rising index. An index that is not
listed has no value of its own (log 10). -/
abbrev Memory := List Host.Cell

end Sys2Proof.Machine

namespace Sys2Proof.Machine

/-- The engine. -/
structure State where
  lines : Lines
  xchg : ExchangeRegs
  framer : FramerRegs
  seq : SequencerRegs
  buf : Memory
  out : Outputs
  cache : Cache
  flags : Flags
  /-- PARAMS, which no step writes (R43; log 2). -/
  params : Params
  env : Inputs
  /-- The pin events performed so far, the newest first (R11; log 15). -/
  trace : List PinEvent
  /-- How many steps have ended in a hardware reset (log 11). -/
  powerOns : Nat
  deriving DecidableEq, Repr

/-- The faults of the model. Both are raised only in states no run reaches, and both are safe. -/
inductive Fault where
  /-- Raised by a phase-stepped transaction whose `IDX` is `BUF_CAP` or more: there is no such byte of `BUF` (R57, U6f).
  Safe: the model stops where the spec has no behaviour. -/
  | bufRange
  /-- Raised by the step of a `BUSY` engine whose `OP` and `NEG` name no next action, which R28 and R29 exclude.
  Safe: the model stops where the spec has no behaviour. -/
  | noNextInstruction
  deriving DecidableEq, Repr

/-- The refusals of the model. -/
inductive Refusal where
  /-- Raised by an arm of `exec` whose instruction has no meaning yet; safe. -/
  | notModelled (mnemonic : String)
  /-- Raised by an instruction that exchanges bytes, or a row of the small-step form that begins an EXCHANGE, while
  the lines are not configured or Clock is Low: "EXCHANGE
  is defined only when the four lines are configured (`INITIALISED` = 1) and `CLK_OUT` = 1 on entry" (R106); safe. -/
  | linesNotReady
  /-- Raised by a SEND of an empty or over-long command list, which "has no meaning and a model refuses it"
  (R121), PRESS_EN, PRESS_CFG and NEGOTIATE with such parameters among them; safe. -/
  | badCommand
  deriving DecidableEq, Repr

/-- The outcome of a step of this machine. -/
abbrev Outcome := Host.Outcome State Fault Refusal

/-! ### Reset -/

/-- A line the engine drives, after reset: not configured; pull and latch as log 9 names them (R46). -/
def OutputLine.reset : OutputLine := { dir := .unconfigured, pull := .off, latch := false }

/-- The four lines after reset: none is configured (R46, R212). -/
def Lines.reset : Lines :=
  { att := .reset, cmd := .reset, clk := .reset, dat := { dir := .unconfigured, pull := .off } }

/-- The machine right after a hardware reset with the parameters `p`: the values of R46, and for the registers R46
calls unspecified the values log 9 names (DESIGN CHOICE, unsafe). `BUF` lists nothing. The inputs are empty: no
controller answers, the host presents nothing and asserts no reset (log 6, 7, 8). -/
def State.resetWith (p : Params) : State where
  lines := .reset
  xchg := { tx := 0, rx := 0, bitn := 0, bx := .idle }
  framer := { cmdBuf := List.replicate p.cmdCap.val 0, cmdLen := 1, idx := 0, recvSize := 3, fr := .idle }
  seq :=
    { op := .none, neg := .idle, subseq := .mode, slot := 0, syncCtr := 0, attempt := 0, target := .digital,
      lock := false }
  buf := []
  out :=
    { pressed := 0, intensity := Vector.replicate 12 0, intValid := false, axis := Vector.replicate 4 0,
      axisFresh := false }
  cache := { prevMode := 0, prevSlice := Vector.replicate 6 0, prevValid := false }
  flags := { busy := false, initialised := false, changed := false, err := .noError }
  params := p
  env := { dataIn := [], hostIn := [], resetIn := [] }
  trace := []
  powerOns := 0

/-- The machine right after power-up, with the parameter record it is built with (R7, R46). -/
def State.reset : State := State.resetWith Config.params

end Sys2Proof.Machine
end

