-- ==== Sys2Proof/Machine/Ops.lean ====
section
/-!
DEFINITION. The named operations over memory, lines and registers that the meanings are built from: the Raw
Response Buffer, pin events, the acceptance and the end of a host operation, raising an error, hardware reset.
-/

namespace Sys2Proof.Machine

/-! ### The Raw Response Buffer (R50 to R53) -/

/-- The byte at index `i`, or nothing where none has been written since reset. -/
def Memory.read : Memory → Nat → Option Byte
  | [], _ => none
  | (a, b) :: rest, i => if a = i then some b else Memory.read rest i

/-- Write one byte, keeping the indices rising. -/
def Memory.write : Memory → Nat → Byte → Memory
  | [], i, v => [(i, v)]
  | (a, b) :: rest, i, v =>
    if i < a then (i, v) :: (a, b) :: rest
    else if i = a then (i, v) :: rest
    else (a, b) :: Memory.write rest i v

/-- The canonical form: indices strictly rising. An unlisted index has no value, so no entry can equal it. That no
index lies outside `BUF` is `Sound.memoryRange`, since `BUF_CAP` is a parameter. -/
abbrev Memory.wf (m : Memory) : Prop := m.Pairwise fun x y => x.1 < y.1

/-- `BUF[i]`. A byte never written since reset is a free value (U6a, P8; log 10). -/
def bufAt (s : State) (i : Nat) : Byte :=
  (Memory.read s.buf i).getD (Config.powerOnByte s.powerOns i)

/-- `BUF[i] <- b`. -/
def storeBuf (i : Nat) (b : Byte) (s : State) : State :=
  { s with buf := Memory.write s.buf i b }

/-- `MODE_BYTE`: not a register but the current `BUF[1]` (R42). -/
def modeByte (s : State) : Byte := bufAt s 1

/-! ### Bits -/

/-- `v[n] <- l`. -/
def setBit {w : Nat} (v : BitVec w) (n : Nat) (l : Bool) : BitVec w :=
  (v &&& ~~~(1#w <<< n)) ||| ((BitVec.ofBool l).setWidth w <<< n)

/-! ### Pin events (R10, R11) -/

/-- Record a pin event. -/
def emit (e : PinEvent) (s : State) : State :=
  { s with trace := e :: s.trace }

/-- The lines with one output latch set (R21). -/
def Lines.drive (ls : Lines) (line : OutLine) (l : Level) : Lines :=
  match line with
  | .att => { ls with att := { ls.att with latch := l } }
  | .cmd => { ls with cmd := { ls.cmd with latch := l } }
  | .clk => { ls with clk := { ls.clk with latch := l } }

/-- `Wr(line, l)`: the latch holds `l` until the next `Wr` of the line (R21, R198). -/
def wr (line : OutLine) (l : Level) (s : State) : State :=
  emit (.wr line l) { s with lines := s.lines.drive line l }

/-- `Wait(kind)`: an event without a duration of its own (R200, D2; log 16). -/
def wait (kind : WaitKind) (s : State) : State :=
  emit (.wait kind) s

/-- The level `Rd()` finds on Data: the controller's next level, or High by the pull-up where nothing drives the
line (R13, R199; log 6). -/
def dataLevel (s : State) : Level := s.env.dataIn.headD true

/-- `RX[n] <- Rd()` (R101, R199). -/
def sample (n : Fin 8) (s : State) : State :=
  emit (.rd (dataLevel s))
    { s with
      xchg := { s.xchg with rx := setBit s.xchg.rx n (dataLevel s) }
      env := { s.env with dataIn := s.env.dataIn.tail } }

/-- A driven line after `Cfg`: an output with its latch High and no pull (R21, R166). -/
def OutputLine.configured : OutputLine := { dir := .output, pull := .off, latch := true }

/-- The four lines after `Cfg` (R166). -/
def Lines.configured : Lines :=
  { att := .configured, cmd := .configured, clk := .configured, dat := { dir := .input, pull := .up } }

/-- `Cfg`: the four lines configured in one event, the outputs High (R166, D20). -/
def cfg (s : State) : State :=
  emit .cfg { s with lines := Lines.configured }

/-- The precondition of EXCHANGE: the four lines are configured (`INITIALISED` = 1) and `CLK_OUT` = 1 (R106). -/
def linesReady (s : State) : Bool :=
  s.flags.initialised && s.lines.clk.latch

/-! ### Acceptance and end of a host operation (R183) -/

/-- Acceptance: `BUSY <- 1`, `OP <- op`, `ERR <- 0` (R183). -/
def accept (op : Op) (s : State) : State :=
  { s with
    flags := { s.flags with busy := true, err := .noError }
    seq := { s.seq with op := op } }

/-- The last step of an operation: `OP <- NONE`, `BUSY <- 0`, and `NEG` is `Idle` (R183, R29, R142). -/
def endOp (s : State) : State :=
  { s with
    flags := { s.flags with busy := false }
    seq := { s.seq with op := .none, neg := .idle } }

/-- `CHANGED <- b` (R39). -/
def setChanged (b : Bool) (s : State) : State :=
  { s with flags := { s.flags with changed := b } }

/-! ### Errors (R187 to R190) -/

/-- The code of an error kind in the 2-bit `ERR` (R40, R186). -/
def errCode : ErrorKind → BitVec 2
  | .noError => 0
  | .negotiationTimeout => 1
  | .unrecognizedMode => 2

/-- `raise <kind>`: write `ERR` and end the current host operation at that point (R189). For
`NegotiationTimeout` `NEG <- Idle` (R187); for `UnrecognizedMode` `CHANGED <- 0` (R188). Nothing is saved and no
handler is entered; there is no return operation, and acceptance clears `ERR` (R190). -/
def raiseError (kind : ErrorKind) (s : State) : State :=
  endOp
    { s with
      flags :=
        { s.flags with
          err := kind
          changed := if kind = .unrecognizedMode then false else s.flags.changed } }

/-! ### Hardware reset (R210 to R213) -/

/-- What the reset input does at the `k`-th coming step, the next one being step 0: `some n` if it is asserted after
`n` pin events of that step (R14, R210; log 8). -/
def resetAt (s : State) (k : Nat) : Option Nat := s.env.resetIn[k]?.join

/-- The reset input asserted: every piece of state takes its reset value (R210). PARAMS are untouched (R211); the
environment goes on; `BUF` is unspecified again (R213; log 10, 11). -/
def hardReset (s : State) : State :=
  { State.resetWith s.params with
    env := s.env
    trace := s.trace
    powerOns := s.powerOns + 1 }

/-- Whether an event is a sample of Data. -/
def PinEvent.isSample : PinEvent → Bool
  | .rd _ => true
  | .cfg => false
  | .wr _ _ => false
  | .wait _ => false

/-- The reset input asserted after `n` pin events of a step (R213): `t` is the state the step would have left from
`s`. The first `n` events happened (all of them, if there are fewer), their samples of Data were taken, and the engine
is reset. -/
def landReset (n : Nat) (s t : State) : State :=
  let done := t.trace.length - s.trace.length
  let seen := (t.trace.drop (done - n)).take (min n done)
  hardReset
    { t with
      trace := seen ++ s.trace
      env := { t.env with dataIn := s.env.dataIn.drop (seen.countP PinEvent.isSample) } }

/-- The host's presentation of the coming step, if it strobes a request (R183). -/
def presented (s : State) : Option Byte := s.env.hostIn.head?.join

/-- The inputs of the step have passed: its presentation, whether or not it was accepted (R180: it is not queued),
and its entry of the reset input. -/
def takeInputs (s : State) : State :=
  { s with env := { s.env with hostIn := s.env.hostIn.tail, resetIn := s.env.resetIn.tail } }

end Sys2Proof.Machine
end

