-- ==== Sys2Proof/Machine/Operands.lean ====
section
/-!
DEFINITION. Every operand form: the command latch and what a transaction sends from it, the length formula, the
flag bytes of SET_MODE_CMD, the button field, the bytes of each layout.
-/

namespace Sys2Proof.Machine

/-! ### The command list of a SEND (R25, R121) -/

/-- `CMDBUF[0 .. len(cmd)-1] <- cmd ; CMDLEN <- len(cmd)` (R111). -/
def latchCommand (cmd : List Byte) (s : State) : State :=
  { s with
    framer :=
      { s.framer with
        cmdBuf := cmd ++ s.framer.cmdBuf.drop cmd.length
        cmdLen := cmd.length } }

/-- `CMDBUF[i]`; an index the engine never forms reads 0. -/
def FramerRegs.commandByte (f : FramerRegs) (i : Nat) : Byte := f.cmdBuf[i]?.getD 0

/-- The byte sent at wire index `i` (R72, R116): the header, then the latched command, then the pad byte 0x00. -/
def FramerRegs.wireByte (f : FramerRegs) (i : Nat) : Byte :=
  if i = 0 then 0x01
  else if i = 1 then f.commandByte 0
  else if i - 1 < f.cmdLen then f.commandByte (i - 1)
  else 0x00

/-- The length formula `(BUF[1] & 0x0F) * 2 + 3` (R73, R115). -/
def responseLength (mode : Byte) : Nat := (mode &&& 0x0F).toNat * 2 + 3

/-- The body indices 2, 3, ..., N - 1 of a transaction of N bytes (R116). -/
def bodyIndices (n : Nat) : List Nat := List.range' 2 (n - 2)

/-- The bit numbers in the order of the wire, least significant first (R54, R101). -/
def bitOrder : List (Fin 8) := [0, 1, 2, 3, 4, 5, 6, 7]

/-! ### SET_MODE_CMD (R85) -/

/-- `analog_flag = AF_DIGITAL if TARGET = Digital else AF_ANALOG` (R85). -/
def analogFlag (p : Params) : Target → Byte
  | .digital => p.afDigital
  | .analog => p.afAnalog
  | .pressure => p.afAnalog

/-- `lock_flag = LF_LOCK if LOCK = 1 else LF_UNLOCK` (R85). -/
def lockFlag (p : Params) (lock : Bool) : Byte := if lock then p.lfLock else p.lfUnlock

/-! ### The reply (R55, R60) -/

/-- The 16-bit button field `{BUF[4], BUF[3]}` (R55, R149). -/
def buttonField (s : State) : BitVec 16 := bufAt s 4 ++ bufAt s 3

/-- `BUF[5 .. 8]` (R151, R152). -/
def axisBytes (s : State) : Vector Byte 4 := #v[bufAt s 5, bufAt s 6, bufAt s 7, bufAt s 8]

/-- `BUF[9 .. 20]` (R154). -/
def intensityBytes (s : State) : Vector Byte 12 :=
  #v[bufAt s 9, bufAt s 10, bufAt s 11, bufAt s 12, bufAt s 13, bufAt s 14, bufAt s 15, bufAt s 16, bufAt s 17,
    bufAt s 18, bufAt s 19, bufAt s 20]

/-- The slice length: 2 when the mode byte is 0x41, 6 for every other (R170). -/
def sliceLength (mode : Byte) : Nat := if mode = 0x41 then 2 else 6

/-- `PREV_SLICE[0 .. L-1] <- BUF[3 .. 3+L-1]` for L = 2 or 6; with L = 2 the rest is left (R173). -/
def refreshedSlice (s : State) (len : Nat) : Vector Byte 6 :=
  let old := s.cache.prevSlice
  if len = 2 then #v[bufAt s 3, bufAt s 4, old[2], old[3], old[4], old[5]]
  else #v[bufAt s 3, bufAt s 4, bufAt s 5, bufAt s 6, bufAt s 7, bufAt s 8]

end Sys2Proof.Machine
end

