-- ==== Sys2Proof/Machine/Flags.lean ====
section
/-!
DEFINITION. Every flag computation: pressed flags, the strict test, the change-detection comparison, the Confirmed check.
-/

namespace Sys2Proof.Machine

/-- The strict test: the mode byte is not in {0x41, 0x73, 0x79} (R160). -/
def unrecognised (m : Byte) : Bool := m != 0x41 && m != 0x73 && m != 0x79

/-- `PRESSED` of the digital and analog layouts: the complement of the field (R96, R149). -/
def pressedOfField (field : BitVec 16) : BitVec 16 := ~~~field

/-- The pressed flag of a pressure slot: its intensity byte is not 0x00 (R155). -/
def slotPressed (intensity : Byte) : Bool := intensity != 0x00

/-- `PRESSED` of the pressure layout: `~field` on `BSET`, and on `PRESS_MAP(s)` the pressed flag of slot s
(R153, R155). -/
def pressedOfPressure (p : Params) (field : BitVec 16) (intensity : Vector Byte 12) : BitVec 16 :=
  slotOrder.foldl (fun v k => setBit v (p.pressMap[k]).val (slotPressed intensity[k])) (pressedOfField field)

/-- `same` (R171): a POLL has run since INIT, its mode byte is the new one, and the L slice bytes are equal. -/
def sameReply (s : State) : Bool :=
  s.cache.prevValid && s.cache.prevMode == modeByte s &&
    (List.range (sliceLength (modeByte s))).all fun j => s.cache.prevSlice[j]?.getD 0 == bufAt s (3 + j)

/-- The Confirmed check: `BUF[1] = mode_byte(TARGET)`, on all 8 bits (R135). -/
def targetConfirmed (s : State) : Bool := modeByte s == modeByteOf s.seq.target

/-- Whether `RETRY_CAP` = `some k` and attempt k has been made (R137). -/
def capReached (s : State) : Bool :=
  match s.params.retryCap with
  | none => false
  | some k => decide (k ≤ s.seq.attempt)

end Sys2Proof.Machine
end

