-- ==== Sys2Proof/Machine/Decoder.lean ====
section
/-!
DEFINITION. The Decoder: DECODE and the layouts the mode byte selects (R145 to R164).
-/

namespace Sys2Proof.Machine

/-- The digital layout and the digital-style fall-through (R150, R157): `AXIS` and `INTENSITY` keep their bits. -/
def layoutDigital (s : State) : State :=
  { s with
    out :=
      { s.out with
        pressed := pressedOfField (buttonField s)
        intValid := false
        axisFresh := false } }

/-- The analog layout (R151, R152). -/
def layoutAnalog (s : State) : State :=
  { s with
    out :=
      { s.out with
        pressed := pressedOfField (buttonField s)
        intValid := false
        axis := axisBytes s
        axisFresh := true } }

/-- The pressure layout (R153 to R156). -/
def layoutPressure (s : State) : State :=
  { s with
    out :=
      { pressed := pressedOfPressure s.params (buttonField s) (intensityBytes s)
        intensity := intensityBytes s
        intValid := true
        axis := axisBytes s
        axisFresh := true } }

/-- What DECODE does for a mode byte outside the layouts: the fall-through (R157), or in strict mode the raise,
which writes no public output (R160, R188). -/
def layoutOther (m : Byte) (s : State) : State :=
  if s.params.strictMode && unrecognised m then raiseError .unrecognizedMode s else layoutDigital s

/-- `DECODE()` (R148), for the mode byte in the buffer (R145). -/
def decodeReply (s : State) : State :=
  match modeOf (modeByte s) with
  | .digital => layoutDigital s
  | .analog => layoutAnalog s
  | .pressure => layoutPressure s
  | .config => layoutOther (modeByte s) s
  | .unrecognised m => layoutOther m s

/-- DECODE (R148). -/
def execDecode (s : State) : Outcome := .next (decodeReply s)

/-- MODE_DIGITAL: the digital layout (R150). -/
def execModeDigital (s : State) : Outcome := .next (layoutDigital s)

/-- MODE_ANALOG: the analog layout (R151). -/
def execModeAnalog (s : State) : Outcome := .next (layoutAnalog s)

/-- MODE_PRESSURE: the pressure layout (R153 to R156). -/
def execModePressure (s : State) : Outcome := .next (layoutPressure s)

/-- MODE_CONFIG: no layout of its own (R158). -/
def execModeConfig (s : State) : Outcome := .next (layoutOther 0xF3 s)

/-- MODE_OTHER: any other byte (R157, R160). -/
def execModeOther (b : Byte) (s : State) : Outcome := .next (layoutOther b s)

end Sys2Proof.Machine
end

