-- ==== Sys2Proof/Machine/Exchange.lean ====
section
/-!
DEFINITION. The Bit Exchange Engine: EXCHANGE (R100 to R109).
-/

namespace Sys2Proof.Machine

/-- One bit cell (R71, R101): drive Command, Clock low, hold, sample, Clock high, hold. -/
def bitCell (s : State) (n : Fin 8) : State :=
  let s := { s with xchg := { s.xchg with bitn := n } }
  let s := wr .cmd (s.xchg.tx.getLsbD n) s
  let s := wr .clk false s
  let s := wait .half s
  let s := sample n s
  let s := wr .clk true s
  wait .half s

/-- `EXCHANGE(b)` (R101): the result is left in `RX`; `BX` is idle on return (R107). -/
def exchange (b : Byte) (s : State) : State :=
  let s := { s with xchg := { s.xchg with tx := b, rx := 0x00 } }
  let s := bitOrder.foldl bitCell s
  let s := wr .cmd true s
  let s := wait .byte s
  { s with xchg := { s.xchg with bx := .idle } }

/-- EXCHANGE b (R101), defined when the lines are ready (R106). -/
def execExchange (b : Byte) (s : State) : Outcome :=
  if linesReady s then .next (exchange b s) else .refused .linesNotReady

end Sys2Proof.Machine
end

