-- ==== Sys2Proof/Machine/Framer.lean ====
section
/-!
DEFINITION. The Command Framer: SEND, the transaction FRAME, and the six wire commands (R81, R110 to R124).
-/

namespace Sys2Proof.Machine

/-- `IDX <- i ; BUF[i] <- EXCHANGE(out)` with the byte wire index `i` sends (R113, R114, R116). -/
def exchangeAt (s : State) (i : Nat) : State :=
  let s := { s with framer := { s.framer with idx := i } }
  let s := exchange (s.framer.wireByte i) s
  storeBuf i s.xchg.rx s

/-- Steps 1 to 6 of SEND with the command that stands in `CMDBUF` (R111 to R118); `FR` is idle on return. -/
def frame (s : State) : State :=
  let s := wait .att (wr .att false s)
  let s := exchangeAt s 0
  let s := exchangeAt s 1
  let s := { s with framer := { s.framer with recvSize := responseLength (bufAt s 1) } }
  let s := (bodyIndices s.framer.recvSize).foldl exchangeAt s
  let s := wait .att (wr .att true s)
  { s with framer := { s.framer with fr := .idle } }

/-- `SEND(cmd)` (R111): latch the command, then its transaction. -/
def send (cmd : List Byte) (s : State) : State := frame (latchCommand cmd s)

/-- SEND where it is defined: the lines ready (R106) and a list of 1 to `CMD_CAP` bytes (R121). -/
def trySend (cmd : List Byte) (s : State) : Outcome :=
  if linesReady s then
    if legalCommand s.params cmd then .next (send cmd s) else .refused .badCommand
  else .refused .linesNotReady

/-- SEND cmd (R111). -/
def execSend (cmd : List Byte) (s : State) : Outcome := trySend cmd s

/-- FRAME (R72): one Attention window carrying the latched command. -/
def execFrame (s : State) : Outcome :=
  if linesReady s then .next (frame s) else .refused .linesNotReady

/-- POLL_CMD (R82). -/
def execPollCmd (s : State) : Outcome := trySend (pollBytes s.params) s

/-- CFG_ENTER (R83, R129). -/
def execCfgEnter (s : State) : Outcome := trySend cfgEnterBytes s

/-- CFG_EXIT (R84, R133). -/
def execCfgExit (s : State) : Outcome := trySend cfgExitBytes s

/-- SET_MODE_CMD with its flag bytes (R85, R130). -/
def execSetModeCmd (analogFlag lockFlag : Byte) (s : State) : Outcome :=
  trySend (setModeBytes analogFlag lockFlag) s

/-- PRESS_EN(s) (R86, R131). -/
def execPressEn (slot : Fin 12) (s : State) : Outcome := trySend (pressEnBytes s.params slot) s

/-- PRESS_CFG (R87, R131). -/
def execPressCfg (s : State) : Outcome := trySend (pressCfgBytes s.params) s

end Sys2Proof.Machine
end

