-- ==== Sys2Proof/Machine/Negotiator.lean ====
section
/-!
DEFINITION. The Mode Negotiator: the handshake of SET_MODE (R125 to R144), as the sequencer's transitions after
each wire command (R139) and as one whole pass of the loop of R128.
-/

namespace Sys2Proof.Machine

/-- `ATTEMPT <- 0`, in the hardened variant only (R128, D34; log 28). -/
def clearAttempts (s : State) : State :=
  if s.params.retryCap.isSome then { s with seq := { s.seq with attempt := 0 } } else s

/-- The head of the loop of R128: `ATTEMPT <- ATTEMPT + 1` (hardened variant only) and `NEG <- Entering-Config`. -/
def startAttempt (s : State) : State :=
  { s with
    seq :=
      { s.seq with
        attempt := if s.params.retryCap.isSome then s.seq.attempt + 1 else s.seq.attempt
        neg := .enteringConfig } }

/-- The foot of the loop of R128: confirmed, the operation ends (R135; `Confirmed` lasts for no event, R139);
not confirmed and the cap reached, `NegotiationTimeout` (R137, R187); otherwise the next attempt (R136). -/
def confirmCheck (s : State) : State :=
  if targetConfirmed s then endOp { s with seq := { s.seq with neg := .confirmed } }
  else if capReached s then raiseError .negotiationTimeout s
  else startAttempt s

/-- `NEG <- n`. -/
def setNeg (n : Neg) (s : State) : State := { s with seq := { s.seq with neg := n } }

/-- `SUBSEQ <- q` (R30). -/
def setSubSeq (q : SubSeq) (s : State) : State := { s with seq := { s.seq with subseq := q } }

/-- `SLOT <- k` (R30). -/
def setSlot (k : Fin 12) (s : State) : State := { s with seq := { s.seq with slot := k } }

/-- `SYNC_CTR <- n` (R31). -/
def setSync (n : Nat) (s : State) : State := { s with seq := { s.seq with syncCtr := n } }

/-- `NEG <- Setting-Mode ; SUBSEQ <- MODE` (R128). -/
def enterSettingMode (s : State) : State := setSubSeq .mode (setNeg .settingMode s)

/-- The transition of the sequencer when the wire command of the present `NEG` has been sent (R139, R131). -/
def negotiationAdvance (s : State) : State :=
  match s.seq.neg with
  | .idle => s
  | .confirmed => endOp s
  | .enteringConfig => enterSettingMode s
  | .settingMode =>
    match s.seq.subseq with
    | .mode =>
      if s.seq.target = .pressure then setSlot 0 (setSubSeq .en s) else setNeg .exitingConfig s
    | .en => setSubSeq .cfg s
    | .cfg =>
      if h : s.seq.slot.val + 1 < 12 then setSlot ⟨s.seq.slot.val + 1, h⟩ (setSubSeq .en s)
      else setNeg .exitingConfig s
  | .exitingConfig => setSync s.params.resyncCount (setNeg .resyncing s)
  | .resyncing =>
    let s := setSync (s.seq.syncCtr - 1) s
    if s.seq.syncCtr = 0 then confirmCheck s else s

/-- `for SYNC_CTR in n, ..., 1: SEND(POLL_CMD)`: the burst of INIT and the Resyncing polls (R128, R165). -/
def syncBurst : Nat → State → State
  | 0, s => setSync 0 s
  | n + 1, s => syncBurst n (send (pollBytes s.params) (setSync (n + 1) s))

/-- `SLOT <- k ; SUBSEQ <- EN ; SEND(PRESS_EN(k)) ; SUBSEQ <- CFG ; SEND(PRESS_CFG)` (R128, R131). -/
def pressureSlot (s : State) (k : Fin 12) : State :=
  let s := setSubSeq .en (setSlot k s)
  let s := send (pressEnBytes s.params k) s
  let s := setSubSeq .cfg s
  send (pressCfgBytes s.params) s

/-- The body of the loop of R128 from `SEND(CFG_ENTER)` to the Confirmed check. -/
def negotiationPass (s : State) : State :=
  let s := send cfgEnterBytes s
  let s := enterSettingMode s
  let s := send (setModeBytes (analogFlag s.params s.seq.target) (lockFlag s.params s.seq.lock)) s
  let s := if s.seq.target = .pressure then slotOrder.foldl pressureSlot s else s
  let s := setNeg .exitingConfig s
  let s := send cfgExitBytes s
  let s := setNeg .resyncing s
  let s := syncBurst s.params.resyncCount s
  confirmCheck s

/-- The pressure commands are lists SEND accepts (R7, R121); only a pressure target sends them. -/
def negotiationLegal (s : State) : Bool :=
  s.seq.target != .pressure ||
    (legalCommand s.params (pressCfgBytes s.params) &&
      slotOrder.all fun k => legalCommand s.params (pressEnBytes s.params k))

/-- NEGOTIATE (R128): the start of the handshake and one pass of its loop. If the pass is neither confirmed nor
timed out, the loop goes on in the state it leaves (`NEG` = `Entering-Config`, R136), for as many further steps as
it takes, possibly for ever (R221; log 23). -/
def execNegotiate (s : State) : Outcome :=
  if linesReady s then
    if negotiationLegal s then .next (negotiationPass (startAttempt (clearAttempts s)))
    else .refused .badCommand
  else .refused .linesNotReady

/-- How many transactions one attempt performs (R138). -/
def transactionsPerAttempt (p : Params) : Target → Nat
  | .digital => 3 + p.resyncCount
  | .analog => 3 + p.resyncCount
  | .pressure => 27 + p.resyncCount

end Sys2Proof.Machine
end

