-- ==== Sys2Proof/Machine/HostOps.lean ====
section
/-!
DEFINITION. The host operations INIT, POLL, SET_MODE, the reserved words, change detection, and what the host can
read (R165 to R184, R68).
-/

namespace Sys2Proof.Machine

/-! ### INIT (R165 to R168) -/

/-- `INITIALISED <- 1 ; PREV_VALID <- 0 ; CHANGED <- 0 ; INT_VALID <- 0 ; AXIS_FRESH <- 0` (R165, R168). -/
def initFlags (s : State) : State :=
  { s with
    flags := { s.flags with initialised := true, changed := false }
    cache := { s.cache with prevValid := false }
    out := { s.out with intValid := false, axisFresh := false } }

/-- `INIT()` (R165), from its acceptance to its last step. -/
def runInit (s : State) : State :=
  let s := accept .init s
  let s := cfg s
  let s := initFlags s
  let s := syncBurst s.params.initSyncCount s
  endOp s

/-- INIT (R165). A request while `BUSY` = 1 is ignored (R180). -/
def execInit (s : State) : Outcome :=
  if s.flags.busy then .next s else .next (runInit s)

/-! ### POLL (R169 to R174, R178) -/

/-- The cache refresh, whatever the outcome: `PREV_MODE`, `PREV_SLICE[0 .. L-1]`, `PREV_VALID <- 1` (R173). -/
def refreshCache (s : State) : State :=
  { s with
    cache :=
      { prevMode := modeByte s
        prevSlice := refreshedSlice s (sliceLength (modeByte s))
        prevValid := true } }

/-- POLL after its transaction and before DECODE: compare, refresh the cache, make the strict check, and end the
operation where it raises or nothing changed (R169, R172, R178). -/
def compareReply (s : State) : State :=
  let same := sameReply s
  let s := refreshCache s
  if s.params.strictMode && unrecognised (modeByte s) then raiseError .unrecognizedMode s
  else if s.params.changeDetect && same then endOp (setChanged false s)
  else s

/-- POLL after DECODE: `CHANGED <- 1` and the last step, unless DECODE raised (R169). -/
def finishPoll (s : State) : State :=
  if s.seq.op = .poll then endOp (setChanged true s) else s

/-- `POLL()` (R169), from its acceptance to its last step. -/
def runPoll (s : State) : State :=
  let s := accept .poll s
  let s := send (pollBytes s.params) s
  let s := compareReply s
  if s.flags.busy then finishPoll (decodeReply s) else s

/-- POLL (R169). A request while `BUSY` = 1 (R180) or before INIT (R181) is ignored. -/
def execPoll (s : State) : Outcome :=
  if s.flags.busy || !s.flags.initialised then .next s
  else if linesReady s then .next (runPoll s)
  else .refused .linesNotReady

/-! ### SET_MODE (R175 to R177) -/

/-- The operand latches `TARGET <- t`, `LOCK <- l` (R41, R175). -/
def latchTarget (t : Target) (l : Bool) (s : State) : State :=
  { s with seq := { s.seq with target := t, lock := l } }

/-- SET_MODE t, l accepted: `BUSY`, `OP`, `ERR`, the latches (R183), and the handshake entered (R139, R128). -/
def startSetMode (t : Target) (l : Bool) (s : State) : State :=
  startAttempt (clearAttempts (latchTarget t l (accept .setMode s)))

/-- SET_MODE t, l (R175): accepted, and the handshake entered; the wire commands of the handshake are the
following steps, since the operation has no bound (R176; log 1). A request while `BUSY` = 1 (R180) or before INIT
(R181) is ignored. -/
def execSetMode (target : Target) (lock : Bool) (s : State) : Outcome :=
  if s.flags.busy || !s.flags.initialised then .next s else .next (startSetMode target lock s)

/-! ### Reserved words (R76, R182) -/

/-- HOST_RESERVED: "The engine ignores a request that carries one: no pin event, no state change" (R76; log 12). -/
def execHostReserved (_w : Byte) (s : State) : Outcome := .next s

/-! ### What the host reads (R14, R68) -/

/-- The public outputs as the host may rely on them. -/
structure HostView where
  pressed : BitVec 16
  /-- No value while `INT_VALID` = 0 (R34, U1). -/
  intensity : Option (Vector Byte 12)
  /-- No value while `AXIS_FRESH` = 0 (R35, U1). -/
  axis : Option (Vector Byte 4)
  changed : Bool
  err : BitVec 2
  modeByte : Byte
  mode : ReportedMode
  deriving DecidableEq, Repr

/-- The public outputs; nothing while `BUSY` = 1 (R68, D29; log 27). -/
def hostView (s : State) : Option HostView :=
  if s.flags.busy then none
  else
    some
      { pressed := s.out.pressed
        intensity := if s.out.intValid then some s.out.intensity else none
        axis := if s.out.axisFresh then some s.out.axis else none
        changed := s.flags.changed
        err := errCode s.flags.err
        modeByte := modeByte s
        mode := modeOf (modeByte s) }

/-- The optional read port on `BUF` (D16): a byte written since reset, while `BUSY` = 0 (R68). -/
def hostReadBuf (s : State) (i : Nat) : Option Byte :=
  if s.flags.busy then none else Memory.read s.buf i

end Sys2Proof.Machine
end

