-- ==== Sys2Proof/Machine/Dispatch.lean ====
section
/-!
DEFINITION. The meaning of every instruction, one arm per constructor.
-/

namespace Sys2Proof.Machine

def exec (i : Instr) (s : State) : Host.Outcome State Fault Refusal :=
  match i with
  | .init => Sys2Proof.Machine.execInit s
  | .poll => Sys2Proof.Machine.execPoll s
  | .setMode target lock => Sys2Proof.Machine.execSetMode target lock s
  | .hostReserved w => Sys2Proof.Machine.execHostReserved w s
  | .pollCmd => Sys2Proof.Machine.execPollCmd s
  | .cfgEnter => Sys2Proof.Machine.execCfgEnter s
  | .cfgExit => Sys2Proof.Machine.execCfgExit s
  | .setModeCmd analogFlag lockFlag => Sys2Proof.Machine.execSetModeCmd analogFlag lockFlag s
  | .pressEn slot => Sys2Proof.Machine.execPressEn slot s
  | .pressCfg => Sys2Proof.Machine.execPressCfg s
  | .modeDigital => Sys2Proof.Machine.execModeDigital s
  | .modeAnalog => Sys2Proof.Machine.execModeAnalog s
  | .modePressure => Sys2Proof.Machine.execModePressure s
  | .modeConfig => Sys2Proof.Machine.execModeConfig s
  | .modeOther b => Sys2Proof.Machine.execModeOther b s
  | .frame => Sys2Proof.Machine.execFrame s
  | .exchange b => Sys2Proof.Machine.execExchange b s
  | .send cmd => Sys2Proof.Machine.execSend cmd s
  | .decode => Sys2Proof.Machine.execDecode s
  | .negotiate => Sys2Proof.Machine.execNegotiate s

end Sys2Proof.Machine
end

