-- ==== Sys2Proof/Machine/Sequencer.lean ====
section
/-!
DEFINITION. The sequencer: which instruction the engine takes next, what it does when that instruction is done
(R139, R165, R169), and the placing of an instruction where the next step takes it.
-/

namespace Sys2Proof.Machine

/-- No transaction is in progress: `FR` and `BX` are idle (R32). -/
def atBoundary (s : State) : Bool :=
  decide (s.framer.fr = .idle) && decide (s.xchg.bx = .idle)

/-- The wire command of the present position of the handshake (R128, R131). -/
def negotiationInstr (s : State) : Option Instr :=
  match s.seq.neg with
  | .idle => none
  | .confirmed => none
  | .enteringConfig => some .cfgEnter
  | .settingMode =>
    match s.seq.subseq with
    | .mode => some (.setModeCmd (analogFlag s.params s.seq.target) (lockFlag s.params s.seq.lock))
    | .en => some (.pressEn s.seq.slot)
    | .cfg => some .pressCfg
  | .exitingConfig => some .cfgExit
  | .resyncing => some .pollCmd

/-- The instruction the engine takes next. Idle: what the host presents, by the host decode (R75). In INIT's burst:
POLL_CMD. In POLL, whose transaction is done: the row of the mode byte in the buffer (R145). In SET_MODE: the wire
command of its position. -/
def fetch (s : State) : Option Instr :=
  if s.flags.busy then
    match s.seq.op with
    | .none => none
    | .init => some .pollCmd
    | .poll => some (decodeMode (modeByte s))
    | .setMode => negotiationInstr s
  else (presented s).map decodeHost

/-- INIT's burst after a poll: `SYNC_CTR` counts down, and the last poll ends the operation (R165, R167). -/
def burstAdvance (s : State) : State :=
  let s := setSync (s.seq.syncCtr - 1) s
  if s.seq.syncCtr = 0 then endOp s else s

/-- What the sequencer does when the instruction it took is done: the burst counts, POLL ends, the handshake
moves on (R139, R165, R169). -/
def advance (s : State) : State :=
  match s.seq.op with
  | .none => s
  | .init => burstAdvance s
  | .poll => finishPoll s
  | .setMode => negotiationAdvance s

/-- What the sequencer does when a transaction it stepped through by phases is done: as `advance`, but POLL has
its comparison before it (R169). -/
def advanceTransaction (s : State) : State :=
  if s.seq.op = .poll then compareReply s else advance s

/-- What a step does when there is nothing to take: an idle engine stays as it is (R204); `Confirmed` goes to
`Idle` at once (R139); any other `BUSY` state is one R28 and R29 exclude. -/
def idleStep (s : State) : Outcome :=
  if s.flags.busy then
    if s.seq.op = .setMode ∧ s.seq.neg = .confirmed then .next (endOp s) else .fault .noNextInstruction
  else .next s

/-! ### Placing an instruction (log 20) -/

/-- The lines as INIT leaves them, and the engine `BUSY` with an operation (R166, R183). -/
def placeOperation (op : Op) (s : State) : State :=
  { s with
    lines := Lines.configured
    flags := { s.flags with busy := true, initialised := true }
    seq := { s.seq with op := op } }

/-- The engine at a position of the handshake. -/
def placeNegotiation (n : Neg) (q : SubSeq) (s : State) : State :=
  setSubSeq q (setNeg n (placeOperation .setMode s))

/-- The mode byte `b` received, and POLL about to decode it. -/
def placeReply (b : Byte) (s : State) : State := storeBuf 1 b (placeOperation .poll s)

/-- The host presents the word `w` at the coming step. -/
def placeHostWord (w : Byte) (s : State) : State :=
  { s with env := { s.env with hostIn := [some w] } }

/-- SET_MODE_CMD about to be sent with the flag bytes `a` and `l`: `TARGET` and `LOCK` are those that give them,
and where the parameters give them for none, the analog and lock flags are set to them. -/
def placeSetModeCmd (a l : Byte) (s : State) : State :=
  let s := placeNegotiation .settingMode .mode s
  let s :=
    if a = s.params.afDigital then { s with seq := { s.seq with target := .digital } }
    else { s with seq := { s.seq with target := .analog }, params := { s.params with afAnalog := a } }
  if l = s.params.lfUnlock then { s with seq := { s.seq with lock := false } }
  else { s with seq := { s.seq with lock := true }, params := { s.params with lfLock := l } }

/-- The state in which the next step takes the instruction `i`; the rows without an encoding are never taken by a
step of their own. -/
def placeInstr (i : Instr) (s : State) : State :=
  match i with
  | .init => placeHostWord 0x00 s
  | .poll => placeHostWord 0x01 s
  | .setMode t l => placeHostWord (setModeWord t l) s
  | .hostReserved w => placeHostWord w s
  | .pollCmd => setSync 1 (placeOperation .init s)
  | .cfgEnter => placeNegotiation .enteringConfig .mode s
  | .cfgExit => placeNegotiation .exitingConfig .mode s
  | .setModeCmd a l => placeSetModeCmd a l s
  | .pressEn k => setSlot k (placeNegotiation .settingMode .en s)
  | .pressCfg => placeNegotiation .settingMode .cfg s
  | .modeDigital => placeReply 0x41 s
  | .modeAnalog => placeReply 0x73 s
  | .modePressure => placeReply 0x79 s
  | .modeConfig => placeReply 0xF3 s
  | .modeOther b => placeReply b s
  | .frame => s
  | .exchange _ => s
  | .send _ => s
  | .decode => s
  | .negotiate => s

/-- The state in which the next step takes the instruction of a table word. INIT and POLL keep the bits of their
word that the host decode ignores (R75). -/
def placeTableWord (nbits w : Nat) (s : State) : State :=
  match decodeTableWord nbits w with
  | none => s
  | some .init => placeHostWord (BitVec.ofNat 8 w) s
  | some .poll => placeHostWord (BitVec.ofNat 8 w) s
  | some i => placeInstr i s

end Sys2Proof.Machine
end

