-- ==== Sys2Proof/Machine/Phases.lean ====
section
/-!
DEFINITION. The small-step forms: EXCHANGE one pin event at a time by `BX` (R108) and SEND by `FR` (R123).
A step takes one row of them when it finds a transaction in progress (log 18).
-/

namespace Sys2Proof.Machine

/-- `BX <- q`. -/
def setBx (q : BitPhase) (s : State) : State := { s with xchg := { s.xchg with bx := q } }

/-- `FR <- p`. -/
def setFr (p : FramerPhase) (s : State) : State := { s with framer := { s.framer with fr := p } }

/-- `IDX <- i`. -/
def setIdx (i : Nat) (s : State) : State := { s with framer := { s.framer with idx := i } }

/-- The row `B_IDLE` (call with b) of R108. -/
def beginExchange (b : Byte) (s : State) : State :=
  { s with xchg := { tx := b, rx := 0x00, bitn := 0, bx := .drive } }

/-- The row `F_IDLE` (call with cmd) of R123. -/
def beginSend (cmd : List Byte) (s : State) : State := setFr .assert (latchCommand cmd s)

/-- The rows of R108 but the call and the return. -/
def bitPhaseStep (s : State) : State :=
  match s.xchg.bx with
  | .idle => s
  | .drive => setBx .clkLo (wr .cmd (s.xchg.tx.getLsbD s.xchg.bitn) s)
  | .clkLo => setBx .holdLo (wr .clk false s)
  | .holdLo => setBx .sample (wait .half s)
  | .sample => setBx .clkHi (sample s.xchg.bitn s)
  | .clkHi => setBx .holdHi (wr .clk true s)
  | .holdHi =>
    let s := wait .half s
    if h : s.xchg.bitn.val + 1 < 8 then
      setBx .drive { s with xchg := { s.xchg with bitn := ⟨s.xchg.bitn.val + 1, h⟩ } }
    else setBx .release s
  | .release => setBx .settle (wr .cmd true s)
  | .settle => setBx .idle (wait .byte s)

/-- The Framer when the EXCHANGE of its phase has returned: store the byte and go to the next phase (R123). -/
def framerReturn (s : State) : State :=
  let s := storeBuf s.framer.idx s.xchg.rx s
  match s.framer.fr with
  | .idle => s
  | .assert => s
  | .hdr0 => setFr .hdr1 s
  | .hdr1 => setFr .len s
  | .len => s
  | .body => if s.framer.idx + 1 = s.framer.recvSize then setFr .deassert s else setIdx (s.framer.idx + 1) s
  | .deassert => s

/-- The rows of R123; a phase that exchanges a byte begins its EXCHANGE. -/
def framerPhaseStep (s : State) : State :=
  match s.framer.fr with
  | .idle => s
  | .assert => setFr .hdr0 (wait .att (wr .att false s))
  | .hdr0 => beginExchange (s.framer.wireByte 0) (setIdx 0 s)
  | .hdr1 => beginExchange (s.framer.wireByte 1) (setIdx 1 s)
  | .len =>
    setFr .body
      { s with framer := { s.framer with recvSize := responseLength (bufAt s 1), idx := 2 } }
  | .body => beginExchange (s.framer.wireByte s.framer.idx) s
  | .deassert => setFr .idle (wait .att (wr .att true s))

/-- One row of the small-step form: of R123 where no EXCHANGE is in progress, of R108 where one is. -/
def phaseStep (s : State) : State :=
  match s.xchg.bx with
  | .idle => framerPhaseStep s
  | .settle =>
    let s := bitPhaseStep s
    if s.framer.fr = .idle then s else framerReturn s
  | _ => bitPhaseStep s

/-- Whether the next row begins an EXCHANGE: none is in progress, and the Framer is at a phase that exchanges a byte
(R123). -/
def exchangeDue (s : State) : Bool :=
  decide (s.xchg.bx = .idle) &&
    (decide (s.framer.fr = .hdr0) || decide (s.framer.fr = .hdr1) || decide (s.framer.fr = .body))

/-- A step of an engine with a transaction in progress: one row; when it was the last, the sequencer goes on. The
lines must be configured, and Clock High where the row begins an EXCHANGE (R106); the byte a row stores must be one
of `BUF` (R57). -/
def transactionStep (s : State) : Outcome :=
  if s.flags.initialised && (s.lines.clk.latch || !exchangeDue s) then
    if s.framer.fr ≠ .idle ∧ s.params.bufCap.val ≤ s.framer.idx then .fault .bufRange
    else
      let t := phaseStep s
      if atBoundary t && s.flags.busy then .next (advanceTransaction t) else .next t
  else .refused .linesNotReady

end Sys2Proof.Machine
end

