-- ==== Sys2Proof/Machine/Cycle.lean ====
section
/-!
DEFINITION. One cycle of the sequencer: take the next instruction, run it, move on; and the landing of the reset input.
-/

namespace Sys2Proof.Machine

/-- Apply a function to the state of a next outcome. -/
def mapNext (f : State → State) : Outcome → Outcome
  | .next s => .next (f s)
  | .fault r => .fault r
  | .refused r => .refused r

/-- One cycle. The inputs of this step pass (R180). A transaction in progress goes on by a phase.
Otherwise the next instruction is taken and run; within an operation the sequencer then moves on. -/
def cycle (s : State) : Outcome :=
  if atBoundary s then
    match fetch s with
    | some i => if s.flags.busy then mapNext advance (exec i (takeInputs s)) else exec i (takeInputs s)
    | none => idleStep (takeInputs s)
  else transactionStep (takeInputs s)

/-- One cycle under the reset input (R210, R213): not asserted, asserted from the start of the step, whatever the
engine would do in it, or asserted within it. -/
def cycleWithReset (s : State) : Outcome :=
  match resetAt s 0 with
  | none => cycle s
  | some 0 => .next (hardReset (takeInputs s))
  | some n => mapNext (landReset n s) (cycle s)

end Sys2Proof.Machine
end

