-- ==== Sys2Proof/Machine/Step.lean ====
section
/-!
DEFINITION. The step of the engine, and the placing of a table word where the next step takes it.
-/

namespace Sys2Proof.Machine

/-- One step of the engine. -/
def step (s : State) : Host.Outcome State Fault Refusal := cycleWithReset s

/-- `s` with the instruction of a table word placed where the next step takes it (log 19, 20); a word that is no
instruction leaves `s` as it is. -/
def State.withFetchWord (s : State) (nbits w : Nat) : State := placeTableWord nbits w s

end Sys2Proof.Machine
end

