-- ==== Sys2Proof/Machine/Timing.lean ====
section
/-!
DEFINITION. The lower bounds on durations the spec derives from a trace (R234); no step depends on them.
-/

namespace Sys2Proof.Machine

/-- The least time a pin event takes: the duration of its `Wait` (R200). -/
def PinEvent.minTime (p : Params) : PinEvent → Nat
  | .wait .half => p.tHalf
  | .wait .byte => p.tByte
  | .wait .att => p.tAtt
  | .cfg => 0
  | .wr _ _ => 0
  | .rd _ => 0

/-- The lower bound on the duration of a sequence of pin events (R234). -/
def traceTime (p : Params) (events : List PinEvent) : Nat :=
  (events.map (PinEvent.minTime p)).sum

end Sys2Proof.Machine
end

