-- ==== Sys2Proof/Safety.lean ====
section
/-!
DEFINITION. What counts as a sound state and a safe run, and the words the claims use: the bytes the answers of Data
spell, the events of a byte and of a transaction, runs of several steps.
-/

namespace Sys2Proof

open Sys2Proof.Machine

/-! ### Replies and traces, as the spec writes them -/

/-- The level of the `k`-th coming sample of Data: High where nothing drives the line (R13, R199). -/
def levelAt (levels : List Level) (k : Nat) : Level := levels[k]?.getD true

/-- The `k`-th byte the answers spell, `{d7, d6, d5, d4, d3, d2, d1, d0}` of its eight answers (R104). -/
def replyByte (levels : List Level) (k : Nat) : Byte :=
  BitVec.ofBool (levelAt levels (8 * k + 7)) ++ BitVec.ofBool (levelAt levels (8 * k + 6)) ++
    BitVec.ofBool (levelAt levels (8 * k + 5)) ++ BitVec.ofBool (levelAt levels (8 * k + 4)) ++
    BitVec.ofBool (levelAt levels (8 * k + 3)) ++ BitVec.ofBool (levelAt levels (8 * k + 2)) ++
    BitVec.ofBool (levelAt levels (8 * k + 1)) ++ BitVec.ofBool (levelAt levels (8 * k))

/-- The six events of bit cell `i` of an EXCHANGE that sends `out` and receives `back` (R71). -/
def cellEvents (out back : Byte) (i : Nat) : List PinEvent :=
  [.wr .cmd (out.getLsbD i), .wr .clk false, .wait .half, .rd (back.getLsbD i), .wr .clk true, .wait .half]

/-- The 50 events of an EXCHANGE, in order (R71, R101). -/
def exchangeEvents (out back : Byte) : List PinEvent :=
  (List.range 8).flatMap (cellEvents out back) ++ [.wr .cmd true, .wait .byte]

/-- The byte sent at wire index `i` of a transaction with the command `cmd` (R72): the header, `cmd[i-1]`, or the pad. -/
def sentByte (cmd : List Byte) (i : Nat) : Byte := if i = 0 then 0x01 else cmd[i - 1]?.getD 0x00

/-- The number of bytes of the transaction whose replies the answers spell (R73). -/
def replyLength (levels : List Level) : Nat := responseLength (replyByte levels 1)

/-- The events of a transaction, in order (R122). -/
def transactionEvents (cmd : List Byte) (levels : List Level) : List PinEvent :=
  [.wr .att false, .wait .att] ++
    (List.range (replyLength levels)).flatMap (fun i => exchangeEvents (sentByte cmd i) (replyByte levels i)) ++
    [.wr .att true, .wait .att]

/-- The lines with the three output latches High and nothing else changed. -/
def linesHigh (ls : Lines) : Lines :=
  { ls with
    att := { ls.att with latch := true }
    cmd := { ls.cmd with latch := true }
    clk := { ls.clk with latch := true } }

/-- Everything a SEND of `cmd` does between `s` and `t`: the replies are in `BUF[0 .. N-1]` and no other byte of
`BUF` changed, the Framer's registers, the lines all High, the events performed, the answers taken, and nothing
outside the lines, the Bit Exchange Engine, the Framer, `BUF`, the answers and the trace changed (R111 to R122). -/
structure TransactionDone (cmd : List Byte) (s t : State) : Prop where
  replies : ∀ i, i < replyLength s.env.dataIn → Memory.read t.buf i = some (replyByte s.env.dataIn i)
  beyond : ∀ i, replyLength s.env.dataIn ≤ i → Memory.read t.buf i = Memory.read s.buf i
  recvSize : t.framer.recvSize = replyLength s.env.dataIn
  idx : t.framer.idx = replyLength s.env.dataIn - 1
  cmdLen : t.framer.cmdLen = cmd.length
  cmdBuf : t.framer.cmdBuf = cmd ++ s.framer.cmdBuf.drop cmd.length
  fr : t.framer.fr = .idle
  bx : t.xchg.bx = .idle
  lines : t.lines = linesHigh s.lines
  env : t.env = { s.env with dataIn := s.env.dataIn.drop (8 * replyLength s.env.dataIn) }
  events : t.trace = (transactionEvents cmd s.env.dataIn).reverse ++ s.trace
  others : t = { s with
    lines := t.lines, xchg := t.xchg, framer := t.framer, buf := t.buf, env := t.env, trace := t.trace }

/-- The events of several transactions after one another, each answered by the levels the one before it left. -/
def commandEvents : List (List Byte) → List Level → List PinEvent
  | [], _ => []
  | cmd :: rest, levels =>
    transactionEvents cmd levels ++ commandEvents rest (levels.drop (8 * replyLength levels))

/-- The levels left after `n` transactions. -/
def levelsAfter : Nat → List Level → List Level
  | 0, levels => levels
  | n + 1, levels => levelsAfter n (levels.drop (8 * replyLength levels))

/-- The commands one negotiation attempt hands to SEND, in order (R128, R131). -/
def attemptCommands (p : Params) (t : Target) (lock : Bool) : List (List Byte) :=
  [cfgEnterBytes, setModeBytes (analogFlag p t) (lockFlag p lock)] ++
    (if t = .pressure then slotOrder.flatMap fun k => [pressEnBytes p k, pressCfgBytes p] else []) ++
    [cfgExitBytes] ++ List.replicate p.resyncCount (pollBytes p)

/-- What `n` transactions leave in `BUF`: every byte is that of the last reply long enough to hold it, and a byte beyond
all replies is as it was (R120, R142). -/
def RepliesLeft (n : Nat) (levels : List Level) (before after : Memory) : Prop :=
  ∀ i,
    (∀ k, k < n → i < replyLength (levelsAfter k levels) →
      (∀ j, k < j → j < n → replyLength (levelsAfter j levels) ≤ i) →
      Memory.read after i = some (replyByte (levelsAfter k levels) i)) ∧
      ((∀ k, k < n → replyLength (levelsAfter k levels) ≤ i) → Memory.read after i = Memory.read before i)

/-- `same` as R171 has it, for the cache `c` before the POLL and the buffer after its transaction in `u`: a POLL has
run since INIT, its mode byte is the new one, and the bytes of the slice (2 for 0x41, 6 otherwise, R170) are equal. -/
def SameReply (c : Cache) (u : State) : Prop :=
  c.prevValid = true ∧ c.prevMode = bufAt u 1 ∧
    ∀ j : Fin 6, (bufAt u 1 = 0x41 → j.val < 2) → c.prevSlice[j] = bufAt u (3 + j)

/-- The cache after a POLL whose transaction left `u` (R173): the mode byte, the slice, and with a slice of 2 the
other four bytes as they were. -/
def CacheRefreshed (c c' : Cache) (u : State) : Prop :=
  c'.prevValid = true ∧ c'.prevMode = bufAt u 1 ∧
    ∀ j : Fin 6, c'.prevSlice[j] = if bufAt u 1 = 0x41 ∧ 2 ≤ j.val then c.prevSlice[j] else bufAt u (3 + j)

/-! ### Runs -/

/-- `n` steps of the machine. -/
def runSteps : Nat → State → Outcome
  | 0, s => .next s
  | n + 1, s =>
    match step s with
    | .next t => runSteps n t
    | .fault r => .fault r
    | .refused r => .refused r

/-- `n` rows of the small-step form (R108, R123). -/
def runPhases : Nat → State → State
  | 0, s => s
  | n + 1, s => runPhases n (phaseStep s)

/-! ### Sound states -/

/-- What holds of the engine between two steps, in every state a run from reset reaches: the ranges of
10_state.md, what `NONE` and `Idle` mean (R28, R29), the idle levels of configured lines (R47), and that an engine
at work has been initialised (R181). -/
structure Sound (s : State) : Prop where
  /-- `BUF` is in canonical form and within its `BUF_CAP` indices (R51). -/
  memory : Memory.wf s.buf
  memoryRange : ∀ c ∈ s.buf, c.1 < s.params.bufCap.val
  /-- The parameters meet the constraints of R7. -/
  params : s.params.Wf
  /-- No transaction is in progress between steps (R67). -/
  framerIdle : s.framer.fr = .idle
  exchangeIdle : s.xchg.bx = .idle
  /-- `OP` is `NONE` exactly when `BUSY` = 0 (R28). -/
  busyOp : s.flags.busy = true ↔ s.seq.op ≠ .none
  /-- `NEG` is `Idle` whenever `OP` is not SET_MODE (R29), and only then (R139). -/
  negOp : s.seq.neg = .idle ↔ s.seq.op ≠ .setMode
  /-- `Confirmed` lasts for no step (R139). -/
  notConfirmed : s.seq.neg ≠ .confirmed
  /-- No operation runs before INIT has configured the lines (R181). -/
  busyReady : s.flags.busy = true → s.flags.initialised = true
  /-- The lines are as `Cfg` leaves them, all High, once initialised (R47, R166), and not configured before (R46). -/
  linesSet : s.flags.initialised = true → s.lines = Lines.configured
  linesUnset : s.flags.initialised = false → s.lines = Lines.reset
  /-- `CMDBUF` has `CMD_CAP` bytes (R25). -/
  bufferSize : s.framer.cmdBuf.length = s.params.cmdCap.val
  /-- The ranges of `IDX`, `RECVSIZE`, `CMDLEN` (R25 to R27). -/
  idxRange : s.framer.idx ≤ 32
  recvRange : 3 ≤ s.framer.recvSize ∧ s.framer.recvSize ≤ 33 ∧ s.framer.recvSize % 2 = 1
  lenRange : 1 ≤ s.framer.cmdLen ∧ s.framer.cmdLen ≤ s.params.cmdCap.val
  /-- The range of `SYNC_CTR` (R31), and that polls are still to be sent while a burst or `Resyncing` runs. -/
  syncRange : s.seq.syncCtr ≤ max s.params.resyncCount s.params.initSyncCount
  syncBurst : s.seq.op = .init → 1 ≤ s.seq.syncCtr
  syncResync : s.seq.neg = .resyncing → 1 ≤ s.seq.syncCtr
  /-- The range of `ATTEMPT` (R31, D34). -/
  attemptNone : s.params.retryCap = none → s.seq.attempt = 0
  attemptCap : ∀ k, s.params.retryCap = some k → s.seq.attempt ≤ k
  /-- `ERR` is 0 while an operation runs (R183, R190), and an error needs its hardened variant (R185). -/
  errBusy : s.flags.busy = true → s.flags.err = .noError
  errTimeout : s.flags.err = .negotiationTimeout → s.params.retryCap ≠ none
  errMode : s.flags.err = .unrecognizedMode → s.params.strictMode = true
  /-- The pressure layout sets both validity flags (R148). -/
  intensityAxes : s.out.intValid = true → s.out.axisFresh = true
  /-- A POLL has run since INIT only if INIT has (R36). -/
  cacheReady : s.cache.prevValid = true → s.flags.initialised = true

/-- A SET_MODE at work in the reference behaviour that nothing answers and no reset cuts (R136, R221, R227). -/
structure Unanswered (s : State) : Prop where
  sound : Sound s
  op : s.seq.op = .setMode
  uncapped : s.params.retryCap = none
  silent : s.env.dataIn = []
  noReset : ∀ k, resetAt s k = none

/-- A step that neither faults nor is refused. -/
def Safe (s : State) : Prop := ∃ t, step s = .next t

end Sys2Proof
end

