-- ==== Sys2Proof/Certificates/Slice0/Obligations.lean ====
section
/-!
DEFINITION. The statements for the provers.
-/

open Sys2Proof Sys2Proof.Machine

/-! ### Encoding -/

/-- Words written out from the encodings of the spec decode to the instructions they stand for: R74 and V50 to V61
for the host word, R82 to R85 for the wire commands, R88 for the mode byte. -/
def Obligations.WrittenWordsDecode : Prop :=
  decodeHost 0b00000000 = .init ∧ decodeHost 0b00000001 = .poll ∧
    decodeHost 0b00010110 = .setMode .analog true ∧ decodeHost 0b00001010 = .setMode .pressure false ∧
    decodeHost 0b00001110 = .hostReserved 0x0E ∧ decodeHost 0b00100001 = .hostReserved 0x21 ∧
    decode Config.params .wireCommand [0b01000010] = .ok .pollCmd ∧
    decodeFixedWire [0b01000011, 0b00000000, 0b00000001] = some .cfgEnter ∧
    decodeFixedWire [0x43, 0x00, 0x00, 0x5A, 0x5A, 0x5A, 0x5A, 0x5A] = some .cfgExit ∧
    decodeFixedWire [0b01000100, 0b00000000, 0x01, 0x03] = some (.setModeCmd 0x01 0x03) ∧
    decodeMode 0b01000001 = .modeDigital ∧ decodeMode 0b01111001 = .modePressure ∧
    decodeMode 0b01010011 = .modeOther 0x53

/-- The host decode of R75 and R76, field by field, on every word. -/
def Obligations.HostDecodeByFields : Prop :=
  ∀ w : Byte,
    decodeHost w =
      if w.extractLsb' 5 3 ≠ 0 then .hostReserved w
      else if w.extractLsb' 0 2 = 0 then .init
      else if w.extractLsb' 0 2 = 1 then .poll
      else if w.extractLsb' 0 2 = 2 ∧ w.extractLsb' 2 2 = 0 then .setMode .digital (w.getLsbD 4)
      else if w.extractLsb' 0 2 = 2 ∧ w.extractLsb' 2 2 = 1 then .setMode .analog (w.getLsbD 4)
      else if w.extractLsb' 0 2 = 2 ∧ w.extractLsb' 2 2 = 2 then .setMode .pressure (w.getLsbD 4)
      else .hostReserved w

/-- Decode and encode agree for every instruction with an encoding, at every operand: nothing of an encoding is
dropped. The pressure commands are parameters; they decode where the parameters give each bytes of its own. -/
def Obligations.EncodeThenDecode : Prop :=
  ∀ (p : Params) (i : Instr) (f : Format) (bs : List Byte),
    p.Wf → p.commandsDistinct = true → i.wf p = true → encode p i = some (f, bs) → decode p f bs = .ok i

/-- The length formula (R73, R95): twice the low nibble plus 3; the high nibble plays no part; an odd number from 3
to 33. -/
def Obligations.LengthFormula : Prop :=
  ∀ m : Byte,
    responseLength m = 2 * (m.extractLsb' 0 4).toNat + 3 ∧ responseLength m % 2 = 1 ∧ 3 ≤ responseLength m ∧
      responseLength m ≤ 33

/-! ### The Bit Exchange Engine -/

/-- EXCHANGE b (R101, R71, R103): `TX` is b, the result in `RX` is the eight answers with the first as bit 0,
`BITN` = 7, Command and Clock are High, exactly the events of the bit frame are performed, and nothing else
changes. -/
def Obligations.ExchangeTransfersByte : Prop :=
  ∀ (s : State) (b : Byte), linesReady s = true →
    ∃ t, exec (.exchange b) s = .next t ∧
      t.xchg = { tx := b, rx := replyByte s.env.dataIn 0, bitn := 7, bx := .idle } ∧
      t.lines = { s.lines with cmd := { s.lines.cmd with latch := true }, clk := { s.lines.clk with latch := true } } ∧
      t.env = { s.env with dataIn := s.env.dataIn.drop 8 } ∧
      t.trace = (exchangeEvents b (replyByte s.env.dataIn 0)).reverse ++ s.trace ∧
      t = { s with xchg := t.xchg, lines := t.lines, env := t.env, trace := t.trace }

/-- EXCHANGE performs exactly 50 pin events (R105), eight of them samples, and lasts at least
16 * `T_HALF` + `T_BYTE` (R234). -/
def Obligations.ExchangeEventsAndTime : Prop :=
  ∀ (s : State) (b : Byte), linesReady s = true →
    ∃ t, exec (.exchange b) s = .next t ∧ t.trace.length = s.trace.length + 50 ∧
      t.trace.countP PinEvent.isSample = s.trace.countP PinEvent.isSample + 8 ∧
      traceTime s.params t.trace = traceTime s.params s.trace + 16 * s.params.tHalf + s.params.tByte

/-- The result of EXCHANGE does not depend on the byte sent, and the events but for the samples, the Command levels
among them, do not depend on the answers (an inference of the spec, R104). -/
def Obligations.ExchangeDirectionsIndependent : Prop :=
  ∀ (s u : State) (b c : Byte), linesReady s = true → linesReady u = true →
    ∃ t v, exec (.exchange b) s = .next t ∧ exec (.exchange c) u = .next v ∧
      (s.env.dataIn = u.env.dataIn → t.xchg.rx = v.xchg.rx) ∧
      (b = c → s.trace = u.trace →
        t.trace.filter (fun e => !e.isSample) = v.trace.filter (fun e => !e.isSample))

/-- EXCHANGE is defined only when the lines are configured and Clock is High (an inference of the spec, R106).
Otherwise EXCHANGE, SEND, FRAME, the six wire commands, NEGOTIATE, a POLL the engine does not ignore, and a step whose
row of the small-step form begins an EXCHANGE stop as `linesNotReady` (the model's choice, log 13). -/
def Obligations.LinesMustBeReady : Prop :=
  ∀ s : State, linesReady s = false →
    (∀ b, exec (.exchange b) s = .refused .linesNotReady) ∧
      (∀ cmd, exec (.send cmd) s = .refused .linesNotReady) ∧ exec .frame s = .refused .linesNotReady ∧
      exec .pollCmd s = .refused .linesNotReady ∧ exec .cfgEnter s = .refused .linesNotReady ∧
      exec .cfgExit s = .refused .linesNotReady ∧
      (∀ a l, exec (.setModeCmd a l) s = .refused .linesNotReady) ∧
      (∀ k, exec (.pressEn k) s = .refused .linesNotReady) ∧ exec .pressCfg s = .refused .linesNotReady ∧
      exec .negotiate s = .refused .linesNotReady ∧
      (s.flags.busy = false → s.flags.initialised = true → exec .poll s = .refused .linesNotReady) ∧
      (exchangeDue s = true → resetAt s 0 ≠ some 0 → step s = .refused .linesNotReady)

/-! ### The Command Framer -/

/-- SEND cmd (R111 to R120): one transaction, of the length its second reply byte gives, the replies in
`BUF[0 .. N-1]`, the bytes beyond N kept, the lines High, and nothing else changed. -/
def Obligations.SendMakesOneTransaction : Prop :=
  ∀ (s : State) (cmd : List Byte), linesReady s = true → 1 ≤ cmd.length →
    cmd.length ≤ s.params.cmdCap.val → ∃ t, exec (.send cmd) s = .next t ∧ TransactionDone cmd s t

/-- FRAME (R72): the transaction of the command that stands latched in `CMDBUF`. -/
def Obligations.FrameCarriesLatchedCommand : Prop :=
  ∀ s : State, linesReady s = true → 1 ≤ s.framer.cmdLen → s.framer.cmdLen ≤ s.framer.cmdBuf.length →
    ∃ t, exec .frame s = .next t ∧ TransactionDone (s.framer.cmdBuf.take s.framer.cmdLen) s t

/-- POLL_CMD, whose bytes are `[0x42]` for this hardware, CFG_ENTER, CFG_EXIT and SET_MODE_CMD are one transaction
each, with their bytes (R82 to R85, R7). -/
def Obligations.FixedWireCommandsSent : Prop :=
  Config.params.pollCmd.val = [0x42] ∧ ∀ s : State, linesReady s = true →
    (∃ t, exec .pollCmd s = .next t ∧ TransactionDone s.params.pollCmd.val s t) ∧
      (∃ t, exec .cfgEnter s = .next t ∧ TransactionDone [0x43, 0x00, 0x01] s t) ∧
      (∃ t, exec .cfgExit s = .next t ∧ TransactionDone [0x43, 0x00, 0x00, 0x5A, 0x5A, 0x5A, 0x5A, 0x5A] s t) ∧
      ∀ a l, ∃ t, exec (.setModeCmd a l) s = .next t ∧ TransactionDone [0x44, 0x00, a, l] s t

/-- PRESS_EN(s) and PRESS_CFG are one transaction each, with the bytes the parameters give (R86, R87). -/
def Obligations.PressureCommandsSent : Prop :=
  ∀ s : State, linesReady s = true → s.params.Wf →
    (∀ k : Fin 12, ∃ t, exec (.pressEn k) s = .next t ∧ TransactionDone s.params.pressEn[k] s t) ∧
      ∃ t, exec .pressCfg s = .next t ∧ TransactionDone s.params.pressCfg s t

/-- The trace shape of SEND (R122): 50 N + 4 pin events, of which 8 N are samples. -/
def Obligations.TransactionEventCount : Prop :=
  ∀ (s : State) (cmd : List Byte), linesReady s = true → legalCommand s.params cmd = true →
    ∃ t, exec (.send cmd) s = .next t ∧ t.trace.length = s.trace.length + 50 * t.framer.recvSize + 4 ∧
      t.trace.countP PinEvent.isSample = s.trace.countP PinEvent.isSample + 8 * t.framer.recvSize

/-- The least duration of SEND (R234): 2 * `T_ATT` + N * (16 * `T_HALF` + `T_BYTE`). -/
def Obligations.TransactionDuration : Prop :=
  ∀ (s : State) (cmd : List Byte), linesReady s = true → legalCommand s.params cmd = true →
    ∃ t, exec (.send cmd) s = .next t ∧
      traceTime s.params t.trace =
        traceTime s.params s.trace + 2 * s.params.tAtt +
          t.framer.recvSize * (16 * s.params.tHalf + s.params.tByte)

/-- Two command lists that differ only by trailing 0x00 bytes give the same trace and the same `BUF` for the same
answers (R79). -/
def Obligations.TrailingPadsInvisible : Prop :=
  ∀ (s : State) (cmd : List Byte) (k : Nat), linesReady s = true → 1 ≤ cmd.length →
    cmd.length + k ≤ s.params.cmdCap.val →
    ∃ t u, exec (.send cmd) s = .next t ∧ exec (.send (cmd ++ List.replicate k 0x00)) s = .next u ∧
      t.trace = u.trace ∧ ∀ i, Memory.read t.buf i = Memory.read u.buf i

/-- At most N - 1 bytes of a command list are sent (R80): lists that agree on their first N - 1 bytes give the same
trace and the same `BUF`. -/
def Obligations.TruncatedBytesNeverSent : Prop :=
  ∀ (s : State) (cmd cmd' : List Byte), linesReady s = true → legalCommand s.params cmd = true →
    legalCommand s.params cmd' = true →
    cmd.take (replyLength s.env.dataIn - 1) = cmd'.take (replyLength s.env.dataIn - 1) →
    ∃ t u, exec (.send cmd) s = .next t ∧ exec (.send cmd') s = .next u ∧ t.trace = u.trace ∧
      ∀ i, Memory.read t.buf i = Memory.read u.buf i

/-- A SEND with an empty or an over-long list is refused (R121). -/
def Obligations.BadCommandsRefused : Prop :=
  ∀ (s : State) (cmd : List Byte), linesReady s = true → cmd.length = 0 ∨ s.params.cmdCap.val < cmd.length →
    exec (.send cmd) s = .refused .badCommand

/-- Data stuck Low (R228): a poll has three bytes, all 0x00, and no byte of `BUF` from index 3 on is written. -/
def Obligations.StuckLowPollIsShort : Prop :=
  ∀ s : State, linesReady s = true → (∀ k, k < 24 → levelAt s.env.dataIn k = false) →
    ∃ t, exec .pollCmd s = .next t ∧ t.framer.recvSize = 3 ∧
      (∀ i, i < 3 → Memory.read t.buf i = some 0x00) ∧ ∀ i, 3 ≤ i → Memory.read t.buf i = Memory.read s.buf i

/-! ### The small-step forms -/

/-- The phase table of EXCHANGE (R108) performs what EXCHANGE does: the call and fifty rows. -/
def Obligations.PhaseRowsMakeExchange : Prop :=
  ∀ (s : State) (b : Byte), linesReady s = true → s.framer.fr = .idle →
    ∃ t, exec (.exchange b) s = .next t ∧ runPhases 50 (beginExchange b s) = t

/-- The phase table of SEND (R123) performs what SEND does: the call, one row for each Attention edge, one for the
length, and for each byte the call of EXCHANGE and its fifty rows. -/
def Obligations.PhaseRowsMakeSend : Prop :=
  ∀ (s : State) (cmd : List Byte), linesReady s = true → legalCommand s.params cmd = true → s.xchg.bx = .idle →
    ∃ t, exec (.send cmd) s = .next t ∧ runPhases (51 * replyLength s.env.dataIn + 3) (beginSend cmd s) = t

/-! ### The Decoder -/

/-- The digital layout (R150): every pressed flag is the complement of its field bit, the validity flags are
cleared, the axes and intensities keep their bits, and nothing outside the outputs changes. -/
def Obligations.DigitalLayout : Prop :=
  ∀ s : State,
    ∃ t, exec .modeDigital s = .next t ∧
      (∀ i : Fin 8, t.out.pressed.getLsbD i = !(bufAt s 3).getLsbD i) ∧
      (∀ i : Fin 8, t.out.pressed.getLsbD (8 + i) = !(bufAt s 4).getLsbD i) ∧
      t.out.intValid = false ∧ t.out.axisFresh = false ∧ t.out.axis = s.out.axis ∧
      t.out.intensity = s.out.intensity ∧ t = { s with out := t.out }

/-- The analog layout (R151, R152): buttons as in the digital layout, and `AXIS[j] <- BUF[5 + j]`. -/
def Obligations.AnalogLayout : Prop :=
  ∀ s : State,
    ∃ t, exec .modeAnalog s = .next t ∧
      (∀ i : Fin 8, t.out.pressed.getLsbD i = !(bufAt s 3).getLsbD i) ∧
      (∀ i : Fin 8, t.out.pressed.getLsbD (8 + i) = !(bufAt s 4).getLsbD i) ∧
      t.out.intValid = false ∧ t.out.axisFresh = true ∧ (∀ j : Fin 4, t.out.axis[j] = bufAt s (5 + j)) ∧
      t.out.intensity = s.out.intensity ∧ t = { s with out := t.out }

/-- The pressure layout (R153 to R156): the buttons outside the image of `PRESS_MAP` from the field, those inside
it pressed exactly when their intensity byte is not 0x00, the intensities and axes copied, both flags set. -/
def Obligations.PressureLayout : Prop :=
  ∀ s : State, s.params.Wf →
    ∃ t, exec .modePressure s = .next t ∧
      (∀ k : Fin 12, t.out.pressed.getLsbD s.params.pressMap[k] = (bufAt s (9 + k) != 0x00)) ∧
      (∀ i : Fin 8, (∀ k : Fin 12, s.params.pressMap[k].val ≠ i.val) →
        t.out.pressed.getLsbD i = !(bufAt s 3).getLsbD i) ∧
      (∀ i : Fin 8, (∀ k : Fin 12, s.params.pressMap[k].val ≠ 8 + i.val) →
        t.out.pressed.getLsbD (8 + i) = !(bufAt s 4).getLsbD i) ∧
      (∀ k : Fin 12, t.out.intensity[k] = bufAt s (9 + k)) ∧ (∀ j : Fin 4, t.out.axis[j] = bufAt s (5 + j)) ∧
      t.out.intValid = true ∧ t.out.axisFresh = true ∧ t = { s with out := t.out }

/-- DECODE is the layout the mode byte in the buffer selects (R148, R145): 0x79 pressure, 0x73 analog, 0x41 digital,
0xF3 as MODE_CONFIG, any other byte as MODE_OTHER. -/
def Obligations.DecodeSelectsLayout : Prop :=
  ∀ s : State,
    ∃ t, exec .decode s = .next t ∧
      (bufAt s 1 = 0x79 → exec .modePressure s = .next t) ∧ (bufAt s 1 = 0x73 → exec .modeAnalog s = .next t) ∧
      (bufAt s 1 = 0x41 → exec .modeDigital s = .next t) ∧ (bufAt s 1 = 0xF3 → exec .modeConfig s = .next t) ∧
      (otherModeByte (bufAt s 1) = true → exec (.modeOther (bufAt s 1)) s = .next t)

/-- The digital-style fall-through (R157, R158): without strict mode MODE_CONFIG and MODE_OTHER decode exactly as
the digital layout does, and so does DECODE for every mode byte but 0x79 and 0x73. -/
def Obligations.UnlistedModesFallThrough : Prop :=
  ∀ (s : State) (b : Byte), s.params.strictMode = false → otherModeByte b = true →
    ∃ t, exec .modeDigital s = .next t ∧ exec .modeConfig s = .next t ∧ exec (.modeOther b) s = .next t ∧
      (bufAt s 1 ≠ 0x79 → bufAt s 1 ≠ 0x73 → exec .decode s = .next t)

/-- Strict mode (R160, R188): MODE_CONFIG, MODE_OTHER and a DECODE whose mode byte is not 0x41, 0x73 or 0x79 raise
`UnrecognizedMode`: `ERR <- 2`, `CHANGED <- 0`, no public output written, the operation ended. Without strict mode
DECODE raises nothing. -/
def Obligations.StrictModeRaises : Prop :=
  ∀ (s : State) (b : Byte), otherModeByte b = true →
    (s.params.strictMode = true →
      ∃ t, exec .modeConfig s = .next t ∧ exec (.modeOther b) s = .next t ∧
        (bufAt s 1 ≠ 0x41 → bufAt s 1 ≠ 0x73 → bufAt s 1 ≠ 0x79 → exec .decode s = .next t) ∧
        errCode t.flags.err = 2 ∧ t.flags.changed = false ∧ t.flags.busy = false ∧ t.seq.op = .none ∧
        t.out = s.out ∧ t.flags.initialised = s.flags.initialised ∧
        t = { s with flags := t.flags, seq := { s.seq with op := .none, neg := .idle } }) ∧
      (s.params.strictMode = false → ∃ t, exec .decode s = .next t ∧ t.flags = s.flags ∧ t.seq = s.seq)

/-- The round trip of R164: a buffer with mode byte 0x41 or 0x73 whose button field is the complement of P decodes
to P; with 0x79 the same holds of the buttons outside the image of `PRESS_MAP`, and of those inside it when their
slot carries a non-zero byte exactly for the pressed ones. -/
def Obligations.ButtonsRoundTrip : Prop :=
  ∀ (s : State) (P : BitVec 16), s.params.Wf → bufAt s 3 = (~~~P).extractLsb' 0 8 →
    bufAt s 4 = (~~~P).extractLsb' 8 8 →
    ((bufAt s 1 = 0x41 ∨ bufAt s 1 = 0x73) → ∃ t, exec .decode s = .next t ∧ t.out.pressed = P) ∧
      (bufAt s 1 = 0x79 →
        ∃ t, exec .decode s = .next t ∧
          (∀ i : Fin 16, (∀ k : Fin 12, s.params.pressMap[k] ≠ i) → t.out.pressed.getLsbD i = P.getLsbD i) ∧
          ((∀ k : Fin 12, (bufAt s (9 + k) != 0x00) = P.getLsbD s.params.pressMap[k]) → t.out.pressed = P))

/-- DECODE is a function of `BUF[1]`, `BUF[3 .. 20]` and the parameters (R162): two states that agree on these give
the same flags and pressed buttons, and the same intensities and axes where they are written. -/
def Obligations.DecodeIsFunctionOfReply : Prop :=
  ∀ s u : State, s.params = u.params → bufAt s 1 = bufAt u 1 →
    (∀ i, 3 ≤ i → i ≤ 20 → bufAt s i = bufAt u i) →
    (s.params.strictMode = false ∨ bufAt s 1 = 0x41 ∨ bufAt s 1 = 0x73 ∨ bufAt s 1 = 0x79) →
    ∃ t v, exec .decode s = .next t ∧ exec .decode u = .next v ∧ t.out.pressed = v.out.pressed ∧
      t.out.intValid = v.out.intValid ∧ t.out.axisFresh = v.out.axisFresh ∧
      (t.out.intValid = true → t.out.intensity = v.out.intensity) ∧
      (t.out.axisFresh = true → t.out.axis = v.out.axis) ∧ t.buf = s.buf ∧ t.cache = s.cache ∧ t.trace = s.trace

/-! ### Host operations -/

/-- INIT (R165 to R168): `Cfg`, then `INIT_SYNC_COUNT` transactions of POLL_CMD, the flags, the lines High, the
engine idle; each byte of `BUF` is that of the last reply that reaches it, so `BUF[0 .. N-1]` is the last reply, and the
rest is as before (R46); no public value, cache byte, operand latch or parameter is written. -/
def Obligations.InitConfiguresAndPolls : Prop :=
  ∀ s : State, s.flags.busy = false →
    ∃ t, exec .init s = .next t ∧
      t.flags = { busy := false, initialised := true, changed := false, err := .noError } ∧
      t.lines = Lines.configured ∧
      t.seq = { s.seq with op := .none, neg := .idle, syncCtr := 0 } ∧
      t.out = { s.out with intValid := false, axisFresh := false } ∧
      t.cache = { s.cache with prevValid := false } ∧
      t.trace =
        (commandEvents (List.replicate s.params.initSyncCount s.params.pollCmd.val) s.env.dataIn).reverse ++
          .cfg :: s.trace ∧
      t.env = { s.env with dataIn := levelsAfter s.params.initSyncCount s.env.dataIn } ∧
      (1 ≤ s.params.initSyncCount →
        Memory.read t.buf 1 = some (replyByte (levelsAfter (s.params.initSyncCount - 1) s.env.dataIn) 1) ∧
          t.framer.recvSize = replyLength (levelsAfter (s.params.initSyncCount - 1) s.env.dataIn) ∧
          t.framer.cmdLen = s.params.pollCmd.val.length ∧ t.framer.fr = .idle ∧ t.xchg.bx = .idle) ∧
      RepliesLeft s.params.initSyncCount s.env.dataIn s.buf t.buf ∧
      t.params = s.params ∧ t.powerOns = s.powerOns

/-- POLL (R169 to R174, R178): one transaction of POLL_CMD leaving `u`; the cache refreshed; then the strict raise,
"no change", or DECODE with `CHANGED` = 1; the engine idle and nothing else changed. -/
def Obligations.PollRunsToItsEnd : Prop :=
  ∀ s : State, s.flags.busy = false → s.flags.initialised = true → linesReady s = true →
    ∃ u t, TransactionDone s.params.pollCmd.val (accept .poll s) u ∧ exec .poll s = .next t ∧
      CacheRefreshed s.cache t.cache u ∧ t.flags.busy = false ∧ t.flags.initialised = true ∧
      t.seq = { s.seq with op := .none, neg := .idle } ∧
      t = { u with cache := t.cache, out := t.out, flags := t.flags, seq := t.seq } ∧
      (s.params.strictMode = true ∧ bufAt u 1 ≠ 0x41 ∧ bufAt u 1 ≠ 0x73 ∧ bufAt u 1 ≠ 0x79 →
        t.flags.err = .unrecognizedMode ∧ t.flags.changed = false ∧ t.out = s.out) ∧
      (¬(s.params.strictMode = true ∧ bufAt u 1 ≠ 0x41 ∧ bufAt u 1 ≠ 0x73 ∧ bufAt u 1 ≠ 0x79) →
        t.flags.err = .noError ∧
          (s.params.changeDetect = true ∧ SameReply s.cache u → t.flags.changed = false ∧ t.out = s.out) ∧
          (¬(s.params.changeDetect = true ∧ SameReply s.cache u) →
            t.flags.changed = true ∧ ∃ d, exec .decode u = .next d ∧ t.out = d.out))

/-- Idempotence (R179): two POLLs with the same reply give identical decoded sets, and with change detection the
second reports no change. -/
def Obligations.PollIsIdempotent : Prop :=
  ∀ s : State, s.flags.busy = false → linesReady s = true →
    (∀ k, k < 8 * replyLength s.env.dataIn →
      levelAt s.env.dataIn (8 * replyLength s.env.dataIn + k) = levelAt s.env.dataIn k) →
    ∃ t u, exec .poll s = .next t ∧ exec .poll t = .next u ∧ u.out = t.out ∧
      (s.params.changeDetect = true → u.flags.changed = false)

/-- Change detection does not see pressure changes (R225): a pressure reply whose first six payload bytes are the
cached ones is reported unchanged, and the intensities keep their values whatever the reply's bytes 9 to 20 are. -/
def Obligations.PressureBlindSpot : Prop :=
  ∀ s : State, s.flags.busy = false → linesReady s = true → s.params.changeDetect = true →
    s.cache.prevValid = true → s.cache.prevMode = 0x79 → replyByte s.env.dataIn 1 = 0x79 →
    (∀ j : Fin 6, s.cache.prevSlice[j] = replyByte s.env.dataIn (3 + j)) →
    ∃ t, exec .poll s = .next t ∧ t.flags.changed = false ∧ t.out = s.out ∧
      ∀ k, k < 12 → Memory.read t.buf (9 + k) = some (replyByte s.env.dataIn (9 + k))

/-- No controller (R227): every byte of a POLL is 0xFF, the transaction has 33 bytes, and a decode finds no button
pressed. -/
def Obligations.NoControllerPoll : Prop :=
  ∀ s : State, s.flags.busy = false → linesReady s = true → s.env.dataIn = [] → s.params.strictMode = false →
    ∃ t, exec .poll s = .next t ∧ t.framer.recvSize = 33 ∧
      (∀ i, i < 33 → Memory.read t.buf i = some 0xFF) ∧
      (t.flags.changed = true → t.out.pressed = 0 ∧ t.out.axisFresh = false)

/-- SET_MODE accepted (R183, R139, R175): `BUSY`, `OP`, `ERR`, the operand latches and `Entering-Config` in one step,
the attempt counted where there is a cap, and nothing else. -/
def Obligations.SetModeAccepted : Prop :=
  ∀ (s : State) (target : Target) (lock : Bool), s.flags.busy = false → s.flags.initialised = true →
    exec (.setMode target lock) s =
      .next
        { s with
          flags := { s.flags with busy := true, err := .noError }
          seq :=
            { s.seq with
              op := .setMode
              neg := .enteringConfig
              target := target
              lock := lock
              attempt := if s.params.retryCap.isSome then 1 else s.seq.attempt } }

/-- Ignored requests (R76, R180, R181): while `BUSY` = 1 every request, before INIT a POLL or SET_MODE, and always a
reserved word, leave the engine as it is. -/
def Obligations.IgnoredRequestsDoNothing : Prop :=
  ∀ s : State,
    (s.flags.busy = true →
      exec .init s = .next s ∧ exec .poll s = .next s ∧ ∀ t l, exec (.setMode t l) s = .next s) ∧
      (s.flags.initialised = false → exec .poll s = .next s ∧ ∀ t l, exec (.setMode t l) s = .next s) ∧
      ∀ w, exec (.hostReserved w) s = .next s

/-- The step of an idle engine to which a reserved word is presented, or a POLL or SET_MODE before INIT: only the
presentation passes (R76, R181, V62). -/
def Obligations.IgnoredRequestSteps : Prop :=
  ∀ (s : State) (w : Byte) (rest : List (Option Byte)), Sound s → s.flags.busy = false → resetAt s 0 = none →
    s.env.hostIn = some w :: rest →
    (reservedHostWord w = true ∨ (s.flags.initialised = false ∧ w.extractLsb' 0 2 ≠ 0)) →
    step s = .next { s with env := { s.env with hostIn := rest, resetIn := s.env.resetIn.tail } }

/-- A request presented while `BUSY` = 1 has no effect and is not queued (R180): the step is the one it would be
without it. -/
def Obligations.BusyEngineIgnoresRequest : Prop :=
  ∀ (s : State) (w : Byte) (rest : List (Option Byte)), s.flags.busy = true → s.env.hostIn = some w :: rest →
    step s = step { s with env := { s.env with hostIn := none :: rest } }

/-! ### The Mode Negotiator -/

/-- NEGOTIATE (R128, R135 to R137, R140, R142): one attempt hands SEND the commands of R128 in order, leaves the
lines High and in each byte of `BUF` that of the last reply that reaches it, so that `BUF[0 .. N-1]` is the last reply, and
leaves the public outputs, `CHANGED`, the cache and every byte of `BUF` beyond its replies as they were; it ends the
operation when `BUF[1]` is the target's mode byte, raises `NegotiationTimeout` where the cap is one attempt, and otherwise
is back in Entering-Config. -/
def Obligations.NegotiateRunsOneAttempt : Prop :=
  ∀ s : State, linesReady s = true → s.params.Wf →
    ∃ t, exec .negotiate s = .next t ∧
      t.trace =
        (commandEvents (attemptCommands s.params s.seq.target s.seq.lock) s.env.dataIn).reverse ++ s.trace ∧
      t.env = { s.env with
        dataIn := levelsAfter (attemptCommands s.params s.seq.target s.seq.lock).length s.env.dataIn } ∧
      RepliesLeft (attemptCommands s.params s.seq.target s.seq.lock).length s.env.dataIn s.buf t.buf ∧
      t.framer.recvSize =
        replyLength (levelsAfter ((attemptCommands s.params s.seq.target s.seq.lock).length - 1) s.env.dataIn) ∧
      t.lines = linesHigh s.lines ∧ t.framer.fr = .idle ∧ t.xchg.bx = .idle ∧ t.out = s.out ∧ t.cache = s.cache ∧
      t.flags.changed = s.flags.changed ∧ t.flags.initialised = s.flags.initialised ∧ t.params = s.params ∧
      t.powerOns = s.powerOns ∧ t.seq.target = s.seq.target ∧ t.seq.lock = s.seq.lock ∧
      (bufAt t 1 = modeByteOf s.seq.target →
        t.seq.neg = .idle ∧ t.seq.op = .none ∧ t.flags.busy = false ∧ t.flags.err = s.flags.err) ∧
      (bufAt t 1 ≠ modeByteOf s.seq.target → s.params.retryCap = some 1 →
        t.seq.neg = .idle ∧ t.seq.op = .none ∧ t.flags.busy = false ∧ t.flags.err = .negotiationTimeout) ∧
      (bufAt t 1 ≠ modeByteOf s.seq.target → s.params.retryCap ≠ some 1 →
        t.seq.neg = .enteringConfig ∧ t.seq.op = s.seq.op ∧ t.flags = s.flags)

/-- The number of transactions of an attempt (R138), counted in the trace of NEGOTIATE by the falling edges of
Attention: 3 + `RESYNC_COUNT` for a Digital or Analog target, 27 + `RESYNC_COUNT` for the pressure target; and
`transactionsPerAttempt` is that number. -/
def Obligations.AttemptTransactionCount : Prop :=
  ∀ s : State, linesReady s = true → s.params.Wf →
    ∃ t, exec .negotiate s = .next t ∧
      t.trace.count (.wr .att false) =
        s.trace.count (.wr .att false) +
          (if s.seq.target = .pressure then 27 + s.params.resyncCount else 3 + s.params.resyncCount) ∧
      t.trace.count (.wr .att false) =
        s.trace.count (.wr .att false) + transactionsPerAttempt s.params s.seq.target

/-- SET_MODE run by the steps of the machine is the handshake of R128: after its acceptance, one step per wire
command of an attempt leaves what NEGOTIATE leaves (the host's inputs of those steps having passed). -/
def Obligations.SetModeStepsAreHandshake : Prop :=
  ∀ (s : State) (target : Target) (lock : Bool), Sound s → s.flags.busy = false → s.flags.initialised = true →
    (∀ k, k < transactionsPerAttempt s.params target → resetAt s k = none) →
    ∃ a c, exec (.setMode target lock) s = .next a ∧
      exec .negotiate (latchTarget target lock (accept .setMode s)) = .next c ∧
      runSteps (transactionsPerAttempt s.params target) a =
        .next
          { c with
            env := { c.env with
              hostIn := s.env.hostIn.drop (transactionsPerAttempt s.params target)
              resetIn := s.env.resetIn.drop (transactionsPerAttempt s.params target) } }

/-- The transition table of `NEG` (R139, R131): each row whose state sends commands is one step of a SET_MODE in
progress. The row Idle to Entering-Config is `SetModeAccepted`; the two rows through Confirmed are one step together,
since Confirmed lasts for no event (R139). -/
def Obligations.HandshakeTransitions : Prop :=
  ∀ s : State, Sound s → s.seq.op = .setMode → resetAt s 0 = none →
    ∃ t, step s = .next t ∧
      (s.seq.neg = .enteringConfig → t.seq.neg = .settingMode ∧ t.seq.subseq = .mode) ∧
      (s.seq.neg = .settingMode → s.seq.subseq = .mode → s.seq.target ≠ .pressure → t.seq.neg = .exitingConfig) ∧
      (s.seq.neg = .settingMode → s.seq.subseq = .mode → s.seq.target = .pressure →
        t.seq.neg = .settingMode ∧ t.seq.subseq = .en ∧ t.seq.slot = 0) ∧
      (s.seq.neg = .settingMode → s.seq.subseq = .en →
        t.seq.neg = .settingMode ∧ t.seq.subseq = .cfg ∧ t.seq.slot = s.seq.slot) ∧
      (s.seq.neg = .settingMode → s.seq.subseq = .cfg → s.seq.slot.val < 11 →
        t.seq.neg = .settingMode ∧ t.seq.subseq = .en ∧ t.seq.slot.val = s.seq.slot.val + 1) ∧
      (s.seq.neg = .settingMode → s.seq.subseq = .cfg → s.seq.slot.val = 11 → t.seq.neg = .exitingConfig) ∧
      (s.seq.neg = .exitingConfig → t.seq.neg = .resyncing ∧ t.seq.syncCtr = s.params.resyncCount) ∧
      (s.seq.neg = .resyncing → 1 < s.seq.syncCtr →
        t.seq.neg = .resyncing ∧ t.seq.syncCtr = s.seq.syncCtr - 1) ∧
      (s.seq.neg = .resyncing → s.seq.syncCtr = 1 → bufAt t 1 = modeByteOf s.seq.target →
        t.seq.neg = .idle ∧ t.flags.busy = false ∧ t.flags.err = .noError) ∧
      (s.seq.neg = .resyncing → s.seq.syncCtr = 1 → bufAt t 1 ≠ modeByteOf s.seq.target →
        s.params.retryCap = none → t.seq.neg = .enteringConfig ∧ t.flags.busy = true) ∧
      (∀ k, s.seq.neg = .resyncing → s.seq.syncCtr = 1 → bufAt t 1 ≠ modeByteOf s.seq.target →
        s.params.retryCap = some k → s.seq.attempt < k →
        t.seq.neg = .enteringConfig ∧ t.flags.busy = true ∧ t.seq.attempt = s.seq.attempt + 1) ∧
      (∀ k, s.seq.neg = .resyncing → s.seq.syncCtr = 1 → bufAt t 1 ≠ modeByteOf s.seq.target →
        s.params.retryCap = some k → k ≤ s.seq.attempt →
        t.seq.neg = .idle ∧ t.flags.busy = false ∧ t.flags.err = .negotiationTimeout)

/-- The retry cap (R137): with `RETRY_CAP` = `some k` a SET_MODE ends within k attempts whatever the controller
answers, with `ERR` = 1 exactly when the last mode byte is not the target's. -/
def Obligations.RetryCapEndsSetMode : Prop :=
  ∀ (s : State) (target : Target) (lock : Bool) (k : Nat), Sound s → s.flags.busy = false →
    s.flags.initialised = true → s.params.retryCap = some k →
    (∀ j, j < k * transactionsPerAttempt s.params target → resetAt s j = none) →
    ∃ a n t, exec (.setMode target lock) s = .next a ∧ n ≤ k * transactionsPerAttempt s.params target ∧
      runSteps n a = .next t ∧ t.flags.busy = false ∧
      (bufAt t 1 = modeByteOf target → t.flags.err = .noError) ∧
      (bufAt t 1 ≠ modeByteOf target → t.flags.err = .negotiationTimeout)

/-- Unbounded retry (R136, R221, R227): in the reference behaviour a SET_MODE that no controller answers never
ends; after any number of steps `BUSY` is still 1. -/
def Obligations.UnansweredSetModeNeverEnds : Prop :=
  ∀ (s : State) (target : Target) (lock : Bool), Sound s → s.flags.busy = false → s.flags.initialised = true →
    (∀ k, resetAt s k = none) → s.params.retryCap = none → s.env.dataIn = [] →
    ∃ a, exec (.setMode target lock) s = .next a ∧ ∀ n, ∃ t, runSteps n a = .next t ∧ t.flags.busy = true

/-! ### Whole-machine rules -/

/-- The reset values R46 states. -/
def Obligations.ResetValues : Prop :=
  State.reset.lines.att.dir = .unconfigured ∧ State.reset.lines.cmd.dir = .unconfigured ∧
    State.reset.lines.clk.dir = .unconfigured ∧ State.reset.lines.dat.dir = .unconfigured ∧
    State.reset.seq.op = .none ∧ State.reset.seq.neg = .idle ∧ State.reset.seq.subseq = .mode ∧
    State.reset.seq.slot = 0 ∧ State.reset.seq.syncCtr = 0 ∧ State.reset.seq.attempt = 0 ∧
    State.reset.framer.fr = .idle ∧ State.reset.xchg.bx = .idle ∧ (∀ i, Memory.read State.reset.buf i = none) ∧
    State.reset.out.intValid = false ∧ State.reset.out.axisFresh = false ∧ State.reset.cache.prevValid = false ∧
    State.reset.flags.busy = false ∧ State.reset.flags.initialised = false ∧ State.reset.flags.changed = false ∧
    errCode State.reset.flags.err = 0

/-- The invariant holds right after reset. -/
def Obligations.ResetIsSound : Prop := Sound State.reset

/-- Every step from a sound state leaves a sound state. -/
def Obligations.StepKeepsSound : Prop := ∀ s t : State, Sound s → step s = .next t → Sound t

/-- From a sound state no step faults and no step is refused. -/
def Obligations.SoundStatesAreSafe : Prop := ∀ s : State, Sound s → Safe s

/-- A step runs the decoded instruction: of an idle engine the word the host presents, its presentation having
passed; of a busy one the instruction of the sequencer's position, after which the sequencer moves on. -/
def Obligations.StepRunsDecodedInstruction : Prop :=
  ∀ s : State, s.framer.fr = .idle → s.xchg.bx = .idle → resetAt s 0 = none →
    (∀ w rest, s.flags.busy = false → s.env.hostIn = some w :: rest →
      step s =
        exec (decodeHost w) { s with env := { s.env with hostIn := rest, resetIn := s.env.resetIn.tail } }) ∧
      (∀ i t, s.flags.busy = true → fetch s = some i →
        exec i { s with env := { s.env with hostIn := s.env.hostIn.tail, resetIn := s.env.resetIn.tail } } = .next t →
          step s = .next (advance t))

/-- No step writes a parameter, reset included (R43, R211). -/
def Obligations.ParametersNeverChange : Prop := ∀ s t : State, step s = .next t → t.params = s.params

/-- Events are only ever added, at the end of the trace (R62). -/
def Obligations.TraceOnlyGrows : Prop := ∀ s t : State, step s = .next t → s.trace <:+ t.trace

/-- The public values and the cache are written only in POLL (R33, R36, R140); `INT_VALID`, `AXIS_FRESH`,
`PREV_VALID` and `CHANGED` only in POLL and INIT (R34 to R36, R39). -/
def Obligations.OutputsWrittenOnlyByPoll : Prop :=
  ∀ s t : State, Sound s → resetAt s 0 = none → step s = .next t → fetch s ≠ some .poll → s.seq.op ≠ .poll →
    t.out.pressed = s.out.pressed ∧ t.out.intensity = s.out.intensity ∧ t.out.axis = s.out.axis ∧
      t.cache.prevMode = s.cache.prevMode ∧ t.cache.prevSlice = s.cache.prevSlice ∧
      (fetch s ≠ some .init →
        t.out = s.out ∧ t.cache = s.cache ∧ t.flags.changed = s.flags.changed)

/-- `INITIALISED` is cleared only by reset (R38). -/
def Obligations.InitialisedUntilReset : Prop :=
  ∀ s t : State, resetAt s 0 = none → s.flags.initialised = true → step s = .next t →
    t.flags.initialised = true

/-- `BUF` is written only by transactions (R52): a step without a pin event leaves every byte of it. -/
def Obligations.BufferWrittenOnlyOnTheWire : Prop :=
  ∀ s t : State, resetAt s 0 = none → step s = .next t → t.trace = s.trace → t.buf = s.buf

/-- Reset may cut an operation at any pin event (R213, R210, R211): if the reset input comes `n` events into a step
that would lead to `u`, the first `n` of its events happen, all of them if there are fewer, exactly their samples of Data
are taken, and the engine is in the reset state, with its parameters. -/
def Obligations.ResetCutsAtAnyEvent : Prop :=
  ∀ (s u : State) (n : Nat), resetAt s 0 = some n → cycle s = .next u →
    ∃ r, step s = .next r ∧ r.trace <:+ u.trace ∧
      r.trace.length = s.trace.length + min n (u.trace.length - s.trace.length) ∧
      r.env =
        { dataIn := s.env.dataIn.drop (r.trace.countP PinEvent.isSample - s.trace.countP PinEvent.isSample)
          hostIn := s.env.hostIn.tail
          resetIn := s.env.resetIn.tail } ∧
      r = { State.resetWith s.params with env := r.env, trace := r.trace, powerOns := s.powerOns + 1 }

/-- The public outputs are defined for the host only while `BUSY` = 0 (R68). Then it reads `PRESSED`, `CHANGED`, `ERR`,
`MODE_BYTE` and `MODE`, and the axes and intensities while their flags say so (R34, R35, R42). -/
def Obligations.HostSeesNothingWhileBusy : Prop :=
  ∀ s : State,
    (s.flags.busy = true → hostView s = none ∧ ∀ i, hostReadBuf s i = none) ∧
      (s.flags.busy = false →
        (∃ v, hostView s = some v ∧ v.pressed = s.out.pressed ∧ v.changed = s.flags.changed ∧
          v.err = errCode s.flags.err ∧ v.modeByte = bufAt s 1 ∧ v.mode = modeOf (bufAt s 1) ∧
          (s.out.axisFresh = true → v.axis = some s.out.axis) ∧ (s.out.axisFresh = false → v.axis = none) ∧
          (s.out.intValid = true → v.intensity = some s.out.intensity) ∧
          (s.out.intValid = false → v.intensity = none)) ∧
          ∀ i, hostReadBuf s i = Memory.read s.buf i)

/-- The reference behaviour has no errors (R185): with no retry cap and no strict mode `ERR` stays 0; EXCHANGE and
SEND raise nothing in any variant. -/
def Obligations.ReferenceBehaviourHasNoErrors : Prop :=
  ∀ s t : State,
    (s.params.retryCap = none → s.params.strictMode = false → s.flags.err = .noError → step s = .next t →
      t.flags.err = .noError) ∧
      (∀ b, exec (.exchange b) s = .next t → t.flags = s.flags) ∧
      ∀ cmd, exec (.send cmd) s = .next t → t.flags = s.flags

/-- Unbounded retry as a step (R136, R221, R227): in the reference behaviour a SET_MODE at work that nothing answers
and no reset cuts is one after every step. -/
def Obligations.UnansweredSetModeStays : Prop :=
  ∀ s t : State, Unanswered s → step s = .next t → Unanswered t

/-- The reset input held asserted (R210): after every step of it the engine is in the reset state, whatever it was doing
and whatever the host presents; no pin event happens, no sample of Data is taken, and the parameters stay (R211). -/
def Obligations.HeldResetKeepsResetState : Prop :=
  ∀ (s : State) (n : Nat), 1 ≤ n → (∀ k, k < n → resetAt s k = some 0) →
    runSteps n s =
      .next
        { State.resetWith s.params with
          env := { s.env with hostIn := s.env.hostIn.drop n, resetIn := s.env.resetIn.drop n }
          trace := s.trace
          powerOns := s.powerOns + n }
end

