-- ==== Sys2Proof/Laws/Commands.lean ====
section
/-!
SUPPORT. The wire commands that the constraints of R7 make legal whatever the parameters are: their lists have 1 to
`CMD_CAP` bytes, since `CMD_CAP` is at least 8.
-/

namespace Sys2Proof

theorem Params.one_le_cmdCap (p : Params) : 1 ≤ p.cmdCap.val := le_trans (by decide) p.cmdCap.property

theorem pollBytes_legal (p : Params) : legalCommand p (pollBytes p) = true := by
  obtain ⟨hhead, hlen⟩ := p.pollCmd.property
  have : p.pollCmd.val ≠ [] := fun h => by simp [h] at hhead
  simp [legalCommand, pollBytes, hlen, Nat.one_le_iff_ne_zero, this]

theorem cfgEnterBytes_legal (p : Params) : legalCommand p cfgEnterBytes = true := by
  have := p.cmdCap.property
  simp [legalCommand, cfgEnterBytes]; omega

theorem cfgExitBytes_legal (p : Params) : legalCommand p cfgExitBytes = true := by
  simpa [legalCommand, cfgExitBytes] using p.cmdCap.property

theorem setModeBytes_legal (p : Params) (analogFlag lockFlag : Byte) :
    legalCommand p (setModeBytes analogFlag lockFlag) = true := by
  have := p.cmdCap.property
  simp [legalCommand, setModeBytes]; omega

end Sys2Proof
end

