-- ==== Sys2Proof/Laws/State.lean ====
section
/-!
SUPPORT. What each update of the state leaves in each field: one lemma per field per update, true by `rfl`.
-/

namespace Sys2Proof.Machine

variable (s : State)

/-! ### emit -/

@[simp] theorem emit_lines (e : PinEvent) : (emit e s).lines = s.lines := rfl
@[simp] theorem emit_xchg (e : PinEvent) : (emit e s).xchg = s.xchg := rfl
@[simp] theorem emit_framer (e : PinEvent) : (emit e s).framer = s.framer := rfl
@[simp] theorem emit_seq (e : PinEvent) : (emit e s).seq = s.seq := rfl
@[simp] theorem emit_buf (e : PinEvent) : (emit e s).buf = s.buf := rfl
@[simp] theorem emit_out (e : PinEvent) : (emit e s).out = s.out := rfl
@[simp] theorem emit_cache (e : PinEvent) : (emit e s).cache = s.cache := rfl
@[simp] theorem emit_flags (e : PinEvent) : (emit e s).flags = s.flags := rfl
@[simp] theorem emit_params (e : PinEvent) : (emit e s).params = s.params := rfl
@[simp] theorem emit_env (e : PinEvent) : (emit e s).env = s.env := rfl
@[simp] theorem emit_trace (e : PinEvent) : (emit e s).trace = e :: s.trace := rfl
@[simp] theorem emit_powerOns (e : PinEvent) : (emit e s).powerOns = s.powerOns := rfl

/-! ### wr -/

@[simp] theorem wr_lines (line : OutLine) (l : Level) : (wr line l s).lines = s.lines.drive line l := rfl
@[simp] theorem wr_xchg (line : OutLine) (l : Level) : (wr line l s).xchg = s.xchg := rfl
@[simp] theorem wr_framer (line : OutLine) (l : Level) : (wr line l s).framer = s.framer := rfl
@[simp] theorem wr_seq (line : OutLine) (l : Level) : (wr line l s).seq = s.seq := rfl
@[simp] theorem wr_buf (line : OutLine) (l : Level) : (wr line l s).buf = s.buf := rfl
@[simp] theorem wr_out (line : OutLine) (l : Level) : (wr line l s).out = s.out := rfl
@[simp] theorem wr_cache (line : OutLine) (l : Level) : (wr line l s).cache = s.cache := rfl
@[simp] theorem wr_flags (line : OutLine) (l : Level) : (wr line l s).flags = s.flags := rfl
@[simp] theorem wr_params (line : OutLine) (l : Level) : (wr line l s).params = s.params := rfl
@[simp] theorem wr_env (line : OutLine) (l : Level) : (wr line l s).env = s.env := rfl
@[simp] theorem wr_trace (line : OutLine) (l : Level) : (wr line l s).trace = .wr line l :: s.trace := rfl
@[simp] theorem wr_powerOns (line : OutLine) (l : Level) : (wr line l s).powerOns = s.powerOns := rfl

/-! ### wait -/

@[simp] theorem wait_lines (k : WaitKind) : (wait k s).lines = s.lines := rfl
@[simp] theorem wait_xchg (k : WaitKind) : (wait k s).xchg = s.xchg := rfl
@[simp] theorem wait_framer (k : WaitKind) : (wait k s).framer = s.framer := rfl
@[simp] theorem wait_seq (k : WaitKind) : (wait k s).seq = s.seq := rfl
@[simp] theorem wait_buf (k : WaitKind) : (wait k s).buf = s.buf := rfl
@[simp] theorem wait_out (k : WaitKind) : (wait k s).out = s.out := rfl
@[simp] theorem wait_cache (k : WaitKind) : (wait k s).cache = s.cache := rfl
@[simp] theorem wait_flags (k : WaitKind) : (wait k s).flags = s.flags := rfl
@[simp] theorem wait_params (k : WaitKind) : (wait k s).params = s.params := rfl
@[simp] theorem wait_env (k : WaitKind) : (wait k s).env = s.env := rfl
@[simp] theorem wait_trace (k : WaitKind) : (wait k s).trace = .wait k :: s.trace := rfl
@[simp] theorem wait_powerOns (k : WaitKind) : (wait k s).powerOns = s.powerOns := rfl

/-! ### sample -/

@[simp] theorem sample_lines (n : Fin 8) : (sample n s).lines = s.lines := rfl
@[simp] theorem sample_xchg (n : Fin 8) :
    (sample n s).xchg =
      { s.xchg with rx := setBit s.xchg.rx n (dataLevel s) } := rfl
@[simp] theorem sample_framer (n : Fin 8) : (sample n s).framer = s.framer := rfl
@[simp] theorem sample_seq (n : Fin 8) : (sample n s).seq = s.seq := rfl
@[simp] theorem sample_buf (n : Fin 8) : (sample n s).buf = s.buf := rfl
@[simp] theorem sample_out (n : Fin 8) : (sample n s).out = s.out := rfl
@[simp] theorem sample_cache (n : Fin 8) : (sample n s).cache = s.cache := rfl
@[simp] theorem sample_flags (n : Fin 8) : (sample n s).flags = s.flags := rfl
@[simp] theorem sample_params (n : Fin 8) : (sample n s).params = s.params := rfl
@[simp] theorem sample_env (n : Fin 8) : (sample n s).env = { s.env with dataIn := s.env.dataIn.tail } := rfl
@[simp] theorem sample_trace (n : Fin 8) : (sample n s).trace = .rd (dataLevel s) :: s.trace := rfl
@[simp] theorem sample_powerOns (n : Fin 8) : (sample n s).powerOns = s.powerOns := rfl

/-! ### storeBuf -/

@[simp] theorem storeBuf_lines (i : Nat) (b : Byte) : (storeBuf i b s).lines = s.lines := rfl
@[simp] theorem storeBuf_xchg (i : Nat) (b : Byte) : (storeBuf i b s).xchg = s.xchg := rfl
@[simp] theorem storeBuf_framer (i : Nat) (b : Byte) : (storeBuf i b s).framer = s.framer := rfl
@[simp] theorem storeBuf_seq (i : Nat) (b : Byte) : (storeBuf i b s).seq = s.seq := rfl
@[simp] theorem storeBuf_buf (i : Nat) (b : Byte) : (storeBuf i b s).buf = Memory.write s.buf i b := rfl
@[simp] theorem storeBuf_out (i : Nat) (b : Byte) : (storeBuf i b s).out = s.out := rfl
@[simp] theorem storeBuf_cache (i : Nat) (b : Byte) : (storeBuf i b s).cache = s.cache := rfl
@[simp] theorem storeBuf_flags (i : Nat) (b : Byte) : (storeBuf i b s).flags = s.flags := rfl
@[simp] theorem storeBuf_params (i : Nat) (b : Byte) : (storeBuf i b s).params = s.params := rfl
@[simp] theorem storeBuf_env (i : Nat) (b : Byte) : (storeBuf i b s).env = s.env := rfl
@[simp] theorem storeBuf_trace (i : Nat) (b : Byte) : (storeBuf i b s).trace = s.trace := rfl
@[simp] theorem storeBuf_powerOns (i : Nat) (b : Byte) : (storeBuf i b s).powerOns = s.powerOns := rfl

/-! ### cfg -/

@[simp] theorem cfg_lines : (cfg s).lines = Lines.configured := rfl
@[simp] theorem cfg_xchg : (cfg s).xchg = s.xchg := rfl
@[simp] theorem cfg_framer : (cfg s).framer = s.framer := rfl
@[simp] theorem cfg_seq : (cfg s).seq = s.seq := rfl
@[simp] theorem cfg_buf : (cfg s).buf = s.buf := rfl
@[simp] theorem cfg_out : (cfg s).out = s.out := rfl
@[simp] theorem cfg_cache : (cfg s).cache = s.cache := rfl
@[simp] theorem cfg_flags : (cfg s).flags = s.flags := rfl
@[simp] theorem cfg_params : (cfg s).params = s.params := rfl
@[simp] theorem cfg_env : (cfg s).env = s.env := rfl
@[simp] theorem cfg_trace : (cfg s).trace = .cfg :: s.trace := rfl
@[simp] theorem cfg_powerOns : (cfg s).powerOns = s.powerOns := rfl

/-! ### accept -/

@[simp] theorem accept_lines (op : Op) : (accept op s).lines = s.lines := rfl
@[simp] theorem accept_xchg (op : Op) : (accept op s).xchg = s.xchg := rfl
@[simp] theorem accept_framer (op : Op) : (accept op s).framer = s.framer := rfl
@[simp] theorem accept_seq (op : Op) : (accept op s).seq = { s.seq with op := op } := rfl
@[simp] theorem accept_buf (op : Op) : (accept op s).buf = s.buf := rfl
@[simp] theorem accept_out (op : Op) : (accept op s).out = s.out := rfl
@[simp] theorem accept_cache (op : Op) : (accept op s).cache = s.cache := rfl
@[simp] theorem accept_flags (op : Op) : (accept op s).flags = { s.flags with busy := true, err := .noError } := rfl
@[simp] theorem accept_params (op : Op) : (accept op s).params = s.params := rfl
@[simp] theorem accept_env (op : Op) : (accept op s).env = s.env := rfl
@[simp] theorem accept_trace (op : Op) : (accept op s).trace = s.trace := rfl
@[simp] theorem accept_powerOns (op : Op) : (accept op s).powerOns = s.powerOns := rfl

/-! ### endOp -/

@[simp] theorem endOp_lines : (endOp s).lines = s.lines := rfl
@[simp] theorem endOp_xchg : (endOp s).xchg = s.xchg := rfl
@[simp] theorem endOp_framer : (endOp s).framer = s.framer := rfl
@[simp] theorem endOp_seq : (endOp s).seq = { s.seq with op := .none, neg := .idle } := rfl
@[simp] theorem endOp_buf : (endOp s).buf = s.buf := rfl
@[simp] theorem endOp_out : (endOp s).out = s.out := rfl
@[simp] theorem endOp_cache : (endOp s).cache = s.cache := rfl
@[simp] theorem endOp_flags : (endOp s).flags = { s.flags with busy := false } := rfl
@[simp] theorem endOp_params : (endOp s).params = s.params := rfl
@[simp] theorem endOp_env : (endOp s).env = s.env := rfl
@[simp] theorem endOp_trace : (endOp s).trace = s.trace := rfl
@[simp] theorem endOp_powerOns : (endOp s).powerOns = s.powerOns := rfl

/-! ### setChanged -/

@[simp] theorem setChanged_lines (b : Bool) : (setChanged b s).lines = s.lines := rfl
@[simp] theorem setChanged_xchg (b : Bool) : (setChanged b s).xchg = s.xchg := rfl
@[simp] theorem setChanged_framer (b : Bool) : (setChanged b s).framer = s.framer := rfl
@[simp] theorem setChanged_seq (b : Bool) : (setChanged b s).seq = s.seq := rfl
@[simp] theorem setChanged_buf (b : Bool) : (setChanged b s).buf = s.buf := rfl
@[simp] theorem setChanged_out (b : Bool) : (setChanged b s).out = s.out := rfl
@[simp] theorem setChanged_cache (b : Bool) : (setChanged b s).cache = s.cache := rfl
@[simp] theorem setChanged_flags (b : Bool) : (setChanged b s).flags = { s.flags with changed := b } := rfl
@[simp] theorem setChanged_params (b : Bool) : (setChanged b s).params = s.params := rfl
@[simp] theorem setChanged_env (b : Bool) : (setChanged b s).env = s.env := rfl
@[simp] theorem setChanged_trace (b : Bool) : (setChanged b s).trace = s.trace := rfl
@[simp] theorem setChanged_powerOns (b : Bool) : (setChanged b s).powerOns = s.powerOns := rfl

/-! ### raiseError -/

@[simp] theorem raiseError_lines (k : ErrorKind) : (raiseError k s).lines = s.lines := rfl
@[simp] theorem raiseError_xchg (k : ErrorKind) : (raiseError k s).xchg = s.xchg := rfl
@[simp] theorem raiseError_framer (k : ErrorKind) : (raiseError k s).framer = s.framer := rfl
@[simp] theorem raiseError_seq (k : ErrorKind) :
    (raiseError k s).seq =
      { s.seq with op := .none, neg := .idle } := rfl
@[simp] theorem raiseError_buf (k : ErrorKind) : (raiseError k s).buf = s.buf := rfl
@[simp] theorem raiseError_out (k : ErrorKind) : (raiseError k s).out = s.out := rfl
@[simp] theorem raiseError_cache (k : ErrorKind) : (raiseError k s).cache = s.cache := rfl
@[simp] theorem raiseError_flags (k : ErrorKind) :
    (raiseError k s).flags =
      { s.flags with
        busy := false, err := k, changed := if k = .unrecognizedMode then false else s.flags.changed } := rfl
@[simp] theorem raiseError_params (k : ErrorKind) : (raiseError k s).params = s.params := rfl
@[simp] theorem raiseError_env (k : ErrorKind) : (raiseError k s).env = s.env := rfl
@[simp] theorem raiseError_trace (k : ErrorKind) : (raiseError k s).trace = s.trace := rfl
@[simp] theorem raiseError_powerOns (k : ErrorKind) : (raiseError k s).powerOns = s.powerOns := rfl

/-! ### takeInputs -/

@[simp] theorem takeInputs_lines : (takeInputs s).lines = s.lines := rfl
@[simp] theorem takeInputs_xchg : (takeInputs s).xchg = s.xchg := rfl
@[simp] theorem takeInputs_framer : (takeInputs s).framer = s.framer := rfl
@[simp] theorem takeInputs_seq : (takeInputs s).seq = s.seq := rfl
@[simp] theorem takeInputs_buf : (takeInputs s).buf = s.buf := rfl
@[simp] theorem takeInputs_out : (takeInputs s).out = s.out := rfl
@[simp] theorem takeInputs_cache : (takeInputs s).cache = s.cache := rfl
@[simp] theorem takeInputs_flags : (takeInputs s).flags = s.flags := rfl
@[simp] theorem takeInputs_params : (takeInputs s).params = s.params := rfl
@[simp] theorem takeInputs_env :
    (takeInputs s).env =
      { s.env with hostIn := s.env.hostIn.tail, resetIn := s.env.resetIn.tail } := rfl
@[simp] theorem takeInputs_trace : (takeInputs s).trace = s.trace := rfl
@[simp] theorem takeInputs_powerOns : (takeInputs s).powerOns = s.powerOns := rfl

/-! ### hardReset -/

@[simp] theorem hardReset_lines : (hardReset s).lines = Lines.reset := rfl
@[simp] theorem hardReset_xchg : (hardReset s).xchg = (State.resetWith s.params).xchg := rfl
@[simp] theorem hardReset_framer : (hardReset s).framer = (State.resetWith s.params).framer := rfl
@[simp] theorem hardReset_seq : (hardReset s).seq = (State.resetWith s.params).seq := rfl
@[simp] theorem hardReset_buf : (hardReset s).buf = [] := rfl
@[simp] theorem hardReset_out : (hardReset s).out = (State.resetWith s.params).out := rfl
@[simp] theorem hardReset_cache : (hardReset s).cache = (State.resetWith s.params).cache := rfl
@[simp] theorem hardReset_flags : (hardReset s).flags = (State.resetWith s.params).flags := rfl
@[simp] theorem hardReset_params : (hardReset s).params = s.params := rfl
@[simp] theorem hardReset_env : (hardReset s).env = s.env := rfl
@[simp] theorem hardReset_trace : (hardReset s).trace = s.trace := rfl
@[simp] theorem hardReset_powerOns : (hardReset s).powerOns = s.powerOns + 1 := rfl

/-! ### latchCommand -/

@[simp] theorem latchCommand_lines (cmd : List Byte) : (latchCommand cmd s).lines = s.lines := rfl
@[simp] theorem latchCommand_xchg (cmd : List Byte) : (latchCommand cmd s).xchg = s.xchg := rfl
@[simp] theorem latchCommand_framer (cmd : List Byte) :
    (latchCommand cmd s).framer =
      { s.framer with
        cmdBuf := cmd ++ s.framer.cmdBuf.drop cmd.length, cmdLen := cmd.length } := rfl
@[simp] theorem latchCommand_seq (cmd : List Byte) : (latchCommand cmd s).seq = s.seq := rfl
@[simp] theorem latchCommand_buf (cmd : List Byte) : (latchCommand cmd s).buf = s.buf := rfl
@[simp] theorem latchCommand_out (cmd : List Byte) : (latchCommand cmd s).out = s.out := rfl
@[simp] theorem latchCommand_cache (cmd : List Byte) : (latchCommand cmd s).cache = s.cache := rfl
@[simp] theorem latchCommand_flags (cmd : List Byte) : (latchCommand cmd s).flags = s.flags := rfl
@[simp] theorem latchCommand_params (cmd : List Byte) : (latchCommand cmd s).params = s.params := rfl
@[simp] theorem latchCommand_env (cmd : List Byte) : (latchCommand cmd s).env = s.env := rfl
@[simp] theorem latchCommand_trace (cmd : List Byte) : (latchCommand cmd s).trace = s.trace := rfl
@[simp] theorem latchCommand_powerOns (cmd : List Byte) : (latchCommand cmd s).powerOns = s.powerOns := rfl

/-! ### setNeg -/

@[simp] theorem setNeg_lines (n : Neg) : (setNeg n s).lines = s.lines := rfl
@[simp] theorem setNeg_xchg (n : Neg) : (setNeg n s).xchg = s.xchg := rfl
@[simp] theorem setNeg_framer (n : Neg) : (setNeg n s).framer = s.framer := rfl
@[simp] theorem setNeg_seq (n : Neg) : (setNeg n s).seq = { s.seq with neg := n } := rfl
@[simp] theorem setNeg_buf (n : Neg) : (setNeg n s).buf = s.buf := rfl
@[simp] theorem setNeg_out (n : Neg) : (setNeg n s).out = s.out := rfl
@[simp] theorem setNeg_cache (n : Neg) : (setNeg n s).cache = s.cache := rfl
@[simp] theorem setNeg_flags (n : Neg) : (setNeg n s).flags = s.flags := rfl
@[simp] theorem setNeg_params (n : Neg) : (setNeg n s).params = s.params := rfl
@[simp] theorem setNeg_env (n : Neg) : (setNeg n s).env = s.env := rfl
@[simp] theorem setNeg_trace (n : Neg) : (setNeg n s).trace = s.trace := rfl
@[simp] theorem setNeg_powerOns (n : Neg) : (setNeg n s).powerOns = s.powerOns := rfl

/-! ### setSubSeq -/

@[simp] theorem setSubSeq_lines (q : SubSeq) : (setSubSeq q s).lines = s.lines := rfl
@[simp] theorem setSubSeq_xchg (q : SubSeq) : (setSubSeq q s).xchg = s.xchg := rfl
@[simp] theorem setSubSeq_framer (q : SubSeq) : (setSubSeq q s).framer = s.framer := rfl
@[simp] theorem setSubSeq_seq (q : SubSeq) : (setSubSeq q s).seq = { s.seq with subseq := q } := rfl
@[simp] theorem setSubSeq_buf (q : SubSeq) : (setSubSeq q s).buf = s.buf := rfl
@[simp] theorem setSubSeq_out (q : SubSeq) : (setSubSeq q s).out = s.out := rfl
@[simp] theorem setSubSeq_cache (q : SubSeq) : (setSubSeq q s).cache = s.cache := rfl
@[simp] theorem setSubSeq_flags (q : SubSeq) : (setSubSeq q s).flags = s.flags := rfl
@[simp] theorem setSubSeq_params (q : SubSeq) : (setSubSeq q s).params = s.params := rfl
@[simp] theorem setSubSeq_env (q : SubSeq) : (setSubSeq q s).env = s.env := rfl
@[simp] theorem setSubSeq_trace (q : SubSeq) : (setSubSeq q s).trace = s.trace := rfl
@[simp] theorem setSubSeq_powerOns (q : SubSeq) : (setSubSeq q s).powerOns = s.powerOns := rfl

/-! ### setSlot -/

@[simp] theorem setSlot_lines (k : Fin 12) : (setSlot k s).lines = s.lines := rfl
@[simp] theorem setSlot_xchg (k : Fin 12) : (setSlot k s).xchg = s.xchg := rfl
@[simp] theorem setSlot_framer (k : Fin 12) : (setSlot k s).framer = s.framer := rfl
@[simp] theorem setSlot_seq (k : Fin 12) : (setSlot k s).seq = { s.seq with slot := k } := rfl
@[simp] theorem setSlot_buf (k : Fin 12) : (setSlot k s).buf = s.buf := rfl
@[simp] theorem setSlot_out (k : Fin 12) : (setSlot k s).out = s.out := rfl
@[simp] theorem setSlot_cache (k : Fin 12) : (setSlot k s).cache = s.cache := rfl
@[simp] theorem setSlot_flags (k : Fin 12) : (setSlot k s).flags = s.flags := rfl
@[simp] theorem setSlot_params (k : Fin 12) : (setSlot k s).params = s.params := rfl
@[simp] theorem setSlot_env (k : Fin 12) : (setSlot k s).env = s.env := rfl
@[simp] theorem setSlot_trace (k : Fin 12) : (setSlot k s).trace = s.trace := rfl
@[simp] theorem setSlot_powerOns (k : Fin 12) : (setSlot k s).powerOns = s.powerOns := rfl

/-! ### setSync -/

@[simp] theorem setSync_lines (n : Nat) : (setSync n s).lines = s.lines := rfl
@[simp] theorem setSync_xchg (n : Nat) : (setSync n s).xchg = s.xchg := rfl
@[simp] theorem setSync_framer (n : Nat) : (setSync n s).framer = s.framer := rfl
@[simp] theorem setSync_seq (n : Nat) : (setSync n s).seq = { s.seq with syncCtr := n } := rfl
@[simp] theorem setSync_buf (n : Nat) : (setSync n s).buf = s.buf := rfl
@[simp] theorem setSync_out (n : Nat) : (setSync n s).out = s.out := rfl
@[simp] theorem setSync_cache (n : Nat) : (setSync n s).cache = s.cache := rfl
@[simp] theorem setSync_flags (n : Nat) : (setSync n s).flags = s.flags := rfl
@[simp] theorem setSync_params (n : Nat) : (setSync n s).params = s.params := rfl
@[simp] theorem setSync_env (n : Nat) : (setSync n s).env = s.env := rfl
@[simp] theorem setSync_trace (n : Nat) : (setSync n s).trace = s.trace := rfl
@[simp] theorem setSync_powerOns (n : Nat) : (setSync n s).powerOns = s.powerOns := rfl

/-! ### startAttempt -/

@[simp] theorem startAttempt_lines : (startAttempt s).lines = s.lines := rfl
@[simp] theorem startAttempt_xchg : (startAttempt s).xchg = s.xchg := rfl
@[simp] theorem startAttempt_framer : (startAttempt s).framer = s.framer := rfl
@[simp] theorem startAttempt_seq :
    (startAttempt s).seq =
      { s.seq with
        attempt := if s.params.retryCap.isSome then s.seq.attempt + 1 else s.seq.attempt, neg := .enteringConfig } := rfl
@[simp] theorem startAttempt_buf : (startAttempt s).buf = s.buf := rfl
@[simp] theorem startAttempt_out : (startAttempt s).out = s.out := rfl
@[simp] theorem startAttempt_cache : (startAttempt s).cache = s.cache := rfl
@[simp] theorem startAttempt_flags : (startAttempt s).flags = s.flags := rfl
@[simp] theorem startAttempt_params : (startAttempt s).params = s.params := rfl
@[simp] theorem startAttempt_env : (startAttempt s).env = s.env := rfl
@[simp] theorem startAttempt_trace : (startAttempt s).trace = s.trace := rfl
@[simp] theorem startAttempt_powerOns : (startAttempt s).powerOns = s.powerOns := rfl

/-! ### latchTarget -/

@[simp] theorem latchTarget_lines (t : Target) (l : Bool) : (latchTarget t l s).lines = s.lines := rfl
@[simp] theorem latchTarget_xchg (t : Target) (l : Bool) : (latchTarget t l s).xchg = s.xchg := rfl
@[simp] theorem latchTarget_framer (t : Target) (l : Bool) : (latchTarget t l s).framer = s.framer := rfl
@[simp] theorem latchTarget_seq (t : Target) (l : Bool) :
    (latchTarget t l s).seq =
      { s.seq with target := t, lock := l } := rfl
@[simp] theorem latchTarget_buf (t : Target) (l : Bool) : (latchTarget t l s).buf = s.buf := rfl
@[simp] theorem latchTarget_out (t : Target) (l : Bool) : (latchTarget t l s).out = s.out := rfl
@[simp] theorem latchTarget_cache (t : Target) (l : Bool) : (latchTarget t l s).cache = s.cache := rfl
@[simp] theorem latchTarget_flags (t : Target) (l : Bool) : (latchTarget t l s).flags = s.flags := rfl
@[simp] theorem latchTarget_params (t : Target) (l : Bool) : (latchTarget t l s).params = s.params := rfl
@[simp] theorem latchTarget_env (t : Target) (l : Bool) : (latchTarget t l s).env = s.env := rfl
@[simp] theorem latchTarget_trace (t : Target) (l : Bool) : (latchTarget t l s).trace = s.trace := rfl
@[simp] theorem latchTarget_powerOns (t : Target) (l : Bool) : (latchTarget t l s).powerOns = s.powerOns := rfl

/-! ### initFlags -/

@[simp] theorem initFlags_lines : (initFlags s).lines = s.lines := rfl
@[simp] theorem initFlags_xchg : (initFlags s).xchg = s.xchg := rfl
@[simp] theorem initFlags_framer : (initFlags s).framer = s.framer := rfl
@[simp] theorem initFlags_seq : (initFlags s).seq = s.seq := rfl
@[simp] theorem initFlags_buf : (initFlags s).buf = s.buf := rfl
@[simp] theorem initFlags_out : (initFlags s).out = { s.out with intValid := false, axisFresh := false } := rfl
@[simp] theorem initFlags_cache : (initFlags s).cache = { s.cache with prevValid := false } := rfl
@[simp] theorem initFlags_flags : (initFlags s).flags = { s.flags with initialised := true, changed := false } := rfl
@[simp] theorem initFlags_params : (initFlags s).params = s.params := rfl
@[simp] theorem initFlags_env : (initFlags s).env = s.env := rfl
@[simp] theorem initFlags_trace : (initFlags s).trace = s.trace := rfl
@[simp] theorem initFlags_powerOns : (initFlags s).powerOns = s.powerOns := rfl

/-! ### refreshCache -/

@[simp] theorem refreshCache_lines : (refreshCache s).lines = s.lines := rfl
@[simp] theorem refreshCache_xchg : (refreshCache s).xchg = s.xchg := rfl
@[simp] theorem refreshCache_framer : (refreshCache s).framer = s.framer := rfl
@[simp] theorem refreshCache_seq : (refreshCache s).seq = s.seq := rfl
@[simp] theorem refreshCache_buf : (refreshCache s).buf = s.buf := rfl
@[simp] theorem refreshCache_out : (refreshCache s).out = s.out := rfl
@[simp] theorem refreshCache_cache :
    (refreshCache s).cache =
      { prevMode := modeByte s, prevSlice := refreshedSlice s (sliceLength (modeByte s)), prevValid := true } := rfl
@[simp] theorem refreshCache_flags : (refreshCache s).flags = s.flags := rfl
@[simp] theorem refreshCache_params : (refreshCache s).params = s.params := rfl
@[simp] theorem refreshCache_env : (refreshCache s).env = s.env := rfl
@[simp] theorem refreshCache_trace : (refreshCache s).trace = s.trace := rfl
@[simp] theorem refreshCache_powerOns : (refreshCache s).powerOns = s.powerOns := rfl

/-! ### layoutDigital -/

@[simp] theorem layoutDigital_lines : (layoutDigital s).lines = s.lines := rfl
@[simp] theorem layoutDigital_xchg : (layoutDigital s).xchg = s.xchg := rfl
@[simp] theorem layoutDigital_framer : (layoutDigital s).framer = s.framer := rfl
@[simp] theorem layoutDigital_seq : (layoutDigital s).seq = s.seq := rfl
@[simp] theorem layoutDigital_buf : (layoutDigital s).buf = s.buf := rfl
@[simp] theorem layoutDigital_out :
    (layoutDigital s).out =
      { s.out with
        pressed := pressedOfField (buttonField s), intValid := false, axisFresh := false } := rfl
@[simp] theorem layoutDigital_cache : (layoutDigital s).cache = s.cache := rfl
@[simp] theorem layoutDigital_flags : (layoutDigital s).flags = s.flags := rfl
@[simp] theorem layoutDigital_params : (layoutDigital s).params = s.params := rfl
@[simp] theorem layoutDigital_env : (layoutDigital s).env = s.env := rfl
@[simp] theorem layoutDigital_trace : (layoutDigital s).trace = s.trace := rfl
@[simp] theorem layoutDigital_powerOns : (layoutDigital s).powerOns = s.powerOns := rfl

/-! ### layoutAnalog -/

@[simp] theorem layoutAnalog_lines : (layoutAnalog s).lines = s.lines := rfl
@[simp] theorem layoutAnalog_xchg : (layoutAnalog s).xchg = s.xchg := rfl
@[simp] theorem layoutAnalog_framer : (layoutAnalog s).framer = s.framer := rfl
@[simp] theorem layoutAnalog_seq : (layoutAnalog s).seq = s.seq := rfl
@[simp] theorem layoutAnalog_buf : (layoutAnalog s).buf = s.buf := rfl
@[simp] theorem layoutAnalog_out :
    (layoutAnalog s).out =
      { s.out with
        pressed := pressedOfField (buttonField s), intValid := false, axis := axisBytes s, axisFresh := true } := rfl
@[simp] theorem layoutAnalog_cache : (layoutAnalog s).cache = s.cache := rfl
@[simp] theorem layoutAnalog_flags : (layoutAnalog s).flags = s.flags := rfl
@[simp] theorem layoutAnalog_params : (layoutAnalog s).params = s.params := rfl
@[simp] theorem layoutAnalog_env : (layoutAnalog s).env = s.env := rfl
@[simp] theorem layoutAnalog_trace : (layoutAnalog s).trace = s.trace := rfl
@[simp] theorem layoutAnalog_powerOns : (layoutAnalog s).powerOns = s.powerOns := rfl

/-! ### layoutPressure -/

@[simp] theorem layoutPressure_lines : (layoutPressure s).lines = s.lines := rfl
@[simp] theorem layoutPressure_xchg : (layoutPressure s).xchg = s.xchg := rfl
@[simp] theorem layoutPressure_framer : (layoutPressure s).framer = s.framer := rfl
@[simp] theorem layoutPressure_seq : (layoutPressure s).seq = s.seq := rfl
@[simp] theorem layoutPressure_buf : (layoutPressure s).buf = s.buf := rfl
@[simp] theorem layoutPressure_out :
    (layoutPressure s).out =
      { pressed := pressedOfPressure s.params (buttonField s) (intensityBytes s), intensity := intensityBytes s,
        intValid := true, axis := axisBytes s, axisFresh := true } := rfl
@[simp] theorem layoutPressure_cache : (layoutPressure s).cache = s.cache := rfl
@[simp] theorem layoutPressure_flags : (layoutPressure s).flags = s.flags := rfl
@[simp] theorem layoutPressure_params : (layoutPressure s).params = s.params := rfl
@[simp] theorem layoutPressure_env : (layoutPressure s).env = s.env := rfl
@[simp] theorem layoutPressure_trace : (layoutPressure s).trace = s.trace := rfl
@[simp] theorem layoutPressure_powerOns : (layoutPressure s).powerOns = s.powerOns := rfl

end Sys2Proof.Machine
end

