-- ==== Sys2Proof/Laws/Memory.lean ====
section
/-!
SUPPORT. The laws of the Raw Response Buffer: a read after a write, and the canonical form.
-/

namespace Sys2Proof.Machine

theorem Memory.read_write_same (m : Memory) (i : Nat) (v : Byte) : Memory.read (Memory.write m i v) i = some v := by
  induction m with
  | nil => simp [Memory.write, Memory.read]
  | cons c rest ih =>
    obtain ⟨a, b⟩ := c
    unfold Memory.write
    split
    · simp [Memory.read]
    · split
      · simp [Memory.read]
      · rename_i h
        simp [Memory.read, Ne.symm h, ih]

theorem Memory.read_write_other (m : Memory) (i j : Nat) (v : Byte) (h : j ≠ i) :
    Memory.read (Memory.write m i v) j = Memory.read m j := by
  induction m with
  | nil => simp [Memory.write, Memory.read, Ne.symm h]
  | cons c rest ih =>
    obtain ⟨a, b⟩ := c
    unfold Memory.write
    split
    · simp [Memory.read, Ne.symm h]
    · split
      · rename_i hia
        subst hia
        simp [Memory.read, Ne.symm h]
      · simp [Memory.read, ih]

theorem Memory.read_write (m : Memory) (i j : Nat) (v : Byte) :
    Memory.read (Memory.write m i v) j = if j = i then some v else Memory.read m j := by
  split
  · subst_vars; exact Memory.read_write_same m _ v
  · exact Memory.read_write_other m i j v ‹_›

theorem Memory.mem_write {m : Memory} {i : Nat} {v : Byte} {c : Host.Cell} (h : c ∈ Memory.write m i v) :
    c = (i, v) ∨ c ∈ m := by
  induction m with
  | nil => exact .inl (by simpa [Memory.write] using h)
  | cons d rest ih =>
    obtain ⟨a, b⟩ := d
    unfold Memory.write at h
    split at h
    · rcases List.mem_cons.mp h with h | h
      · exact .inl h
      · exact .inr h
    · split at h
      · rcases List.mem_cons.mp h with h | h
        · exact .inl h
        · exact .inr (List.mem_cons_of_mem _ h)
      · rcases List.mem_cons.mp h with h | h
        · exact .inr (h ▸ List.mem_cons_self)
        · rcases ih h with h | h
          · exact .inl h
          · exact .inr (List.mem_cons_of_mem _ h)

/-- Every write keeps the canonical form. -/
theorem Memory.wf_write {m : Memory} (i : Nat) (v : Byte) (h : Memory.wf m) : Memory.wf (Memory.write m i v) := by
  induction m with
  | nil => simp [Memory.write]
  | cons c rest ih =>
    obtain ⟨a, b⟩ := c
    have hr := List.pairwise_cons.mp h
    unfold Memory.write
    split
    · rename_i hia
      refine List.pairwise_cons.mpr ⟨fun d hd => ?_, h⟩
      rcases List.mem_cons.mp hd with hd | hd
      · simpa [hd] using hia
      · exact Nat.lt_trans hia (hr.1 d hd)
    · split
      · rename_i hia
        subst hia
        exact List.pairwise_cons.mpr ⟨hr.1, hr.2⟩
      · refine List.pairwise_cons.mpr ⟨fun d hd => ?_, ih hr.2⟩
        rcases Memory.mem_write hd with hd | hd
        · simp only [hd]; omega
        · exact hr.1 d hd

/-- A write inside `BUF` lists no index outside it (R51). -/
theorem Memory.range_write {m : Memory} {i n : Nat} (v : Byte) (h : ∀ c ∈ m, c.1 < n) (hi : i < n) :
    ∀ c ∈ Memory.write m i v, c.1 < n := fun c hc => by
  rcases Memory.mem_write hc with hc | hc
  · simpa [hc] using hi
  · exact h c hc

theorem Memory.wf_reset : Memory.wf State.reset.buf := List.Pairwise.nil

theorem bufAt_of_read {s : State} {i : Nat} {b : Byte} (h : Memory.read s.buf i = some b) : bufAt s i = b := by
  simp [bufAt, h]

@[simp] theorem bufAt_storeBuf_same (s : State) (i : Nat) (b : Byte) : bufAt (storeBuf i b s) i = b :=
  bufAt_of_read (by simp [Memory.read_write_same])

theorem bufAt_congr {s t : State} (hb : t.buf = s.buf) (hp : t.powerOns = s.powerOns) (i : Nat) :
    bufAt t i = bufAt s i := by
  simp [bufAt, hb, hp]

end Sys2Proof.Machine
end

