-- ==== Sys2Proof/Laws/Exchange.lean ====
section
/-!
SUPPORT. What EXCHANGE does, said once: `exchange_eq`.
-/

namespace Sys2Proof.Machine

theorem levelAt_drop (levels : List Level) (n k : Nat) : levelAt (levels.drop n) k = levelAt levels (n + k) := by
  simp [levelAt, List.getElem?_drop]

theorem replyByte_drop (levels : List Level) (n k : Nat) :
    replyByte (levels.drop (8 * n)) k = replyByte levels (n + k) := by
  simp only [replyByte, levelAt_drop, Nat.mul_add, Nat.add_assoc]

theorem headD_eq_levelAt (levels : List Level) : levels.headD true = levelAt levels 0 := by
  cases levels <;> rfl

theorem tail_eq_drop (levels : List Level) : levels.tail = levels.drop 1 := by
  cases levels <;> rfl

/-- What a bit cell does (R71). -/
theorem bitCell_eq (s : State) (n : Fin 8) :
    bitCell s n =
      { s with
        xchg := { s.xchg with bitn := n, rx := setBit s.xchg.rx n (levelAt s.env.dataIn 0) }
        lines := (s.lines.drive .cmd (s.xchg.tx.getLsbD n)).drive .clk true
        env := { s.env with dataIn := s.env.dataIn.drop 1 }
        trace :=
          [.wait .half, .wr .clk true, .rd (levelAt s.env.dataIn 0), .wait .half, .wr .clk false,
            .wr .cmd (s.xchg.tx.getLsbD n)] ++ s.trace } := by
  simp only [bitCell, wr, wait, sample, emit, dataLevel, headD_eq_levelAt, tail_eq_drop]
  rfl

/-- Setting the eight bits of a byte in order assembles `{d7, ..., d0}` (R104). -/
theorem setBits_eq_concat (d0 d1 d2 d3 d4 d5 d6 d7 : Bool) :
    setBit (setBit (setBit (setBit (setBit (setBit (setBit (setBit (0 : Byte) 0 d0) 1 d1) 2 d2) 3 d3) 4 d4) 5 d5)
      6 d6) 7 d7 =
    (BitVec.ofBool d7 ++ BitVec.ofBool d6 ++ BitVec.ofBool d5 ++ BitVec.ofBool d4 ++ BitVec.ofBool d3 ++
      BitVec.ofBool d2 ++ BitVec.ofBool d1 ++ BitVec.ofBool d0 : Byte) := by
  revert d0 d1 d2 d3 d4 d5 d6 d7
  decide

theorem replyByte_getLsbD (levels : List Level) (k : Nat) (i : Fin 8) :
    (replyByte levels k).getLsbD i = levelAt levels (8 * k + i) := by
  have key : ∀ d0 d1 d2 d3 d4 d5 d6 d7 : Bool, ∀ i : Fin 8,
      (BitVec.ofBool d7 ++ BitVec.ofBool d6 ++ BitVec.ofBool d5 ++ BitVec.ofBool d4 ++ BitVec.ofBool d3 ++
        BitVec.ofBool d2 ++ BitVec.ofBool d1 ++ BitVec.ofBool d0 : Byte).getLsbD i =
      #v[d0, d1, d2, d3, d4, d5, d6, d7][i] := by decide
  rw [replyByte, key]
  fin_cases i <;> rfl

/-- Everything EXCHANGE does (R101, R104, R105, R107). -/
theorem exchange_eq (b : Byte) (s : State) :
    exchange b s =
      { s with
        xchg := { tx := b, rx := replyByte s.env.dataIn 0, bitn := 7, bx := .idle }
        lines := (s.lines.drive .cmd true).drive .clk true
        env := { s.env with dataIn := s.env.dataIn.drop 8 }
        trace := (exchangeEvents b (replyByte s.env.dataIn 0)).reverse ++ s.trace } := by
  have hbit : ∀ i : Fin 8, (replyByte s.env.dataIn 0)[i] = levelAt s.env.dataIn i := fun i => by
    have h := replyByte_getLsbD s.env.dataIn 0 i
    simpa using h
  have h := And.intro (hbit 0) (And.intro (hbit 1) (And.intro (hbit 2) (And.intro (hbit 3) (And.intro (hbit 4)
    (And.intro (hbit 5) (And.intro (hbit 6) (hbit 7)))))))
  simp at h
  have hrx : setBit (setBit (setBit (setBit (setBit (setBit (setBit (setBit (0 : Byte) 0 (levelAt s.env.dataIn 0)) 1
      (levelAt s.env.dataIn 1)) 2 (levelAt s.env.dataIn 2)) 3 (levelAt s.env.dataIn 3)) 4
      (levelAt s.env.dataIn 4)) 5 (levelAt s.env.dataIn 5)) 6 (levelAt s.env.dataIn 6)) 7
      (levelAt s.env.dataIn 7) = replyByte s.env.dataIn 0 := setBits_eq_concat ..
  simp only [exchange, bitOrder, List.foldl, bitCell_eq, wr, wait, emit, List.drop_drop, levelAt_drop]
  simp [exchangeEvents, cellEvents, List.range_succ, Lines.drive, h]
  exact hrx

end Sys2Proof.Machine
end

