-- ==== Sys2Proof/Laws/Framer.lean ====
section
/-!
SUPPORT. What a transaction does, said once: `frame_done` and `send_done`.
-/

namespace Sys2Proof.Machine

/-- Everything one indexed EXCHANGE does. -/
theorem exchangeAt_eq (s : State) (i : Nat) :
    exchangeAt s i =
      { s with
        framer := { s.framer with idx := i }
        xchg := { tx := s.framer.wireByte i, rx := replyByte s.env.dataIn 0, bitn := 7, bx := .idle }
        lines := (s.lines.drive .cmd true).drive .clk true
        env := { s.env with dataIn := s.env.dataIn.drop 8 }
        buf := Memory.write s.buf i (replyByte s.env.dataIn 0)
        trace := (exchangeEvents (s.framer.wireByte i) (replyByte s.env.dataIn 0)).reverse ++ s.trace } := by
  simp only [exchangeAt, exchange_eq, storeBuf]
  rfl

/-- `RECVSIZE <- r` does not matter to the exchanges after it. -/
theorem foldl_exchangeAt_recvSize (l : List Nat) (s : State) (r : Nat) :
    l.foldl exchangeAt { s with framer := { s.framer with recvSize := r } } =
      { l.foldl exchangeAt s with framer := { (l.foldl exchangeAt s).framer with recvSize := r } } := by
  induction l generalizing s with
  | nil => rfl
  | cons i l ih =>
    have h : exchangeAt { s with framer := { s.framer with recvSize := r } } i =
        { exchangeAt s i with framer := { (exchangeAt s i).framer with recvSize := r } } := by
      simp only [exchangeAt_eq]
      rfl
    rw [List.foldl_cons, List.foldl_cons, h, ih]

/-- What `n` exchanges at the wire indices 0, 1, ..., n - 1 do, for n ≥ 1. -/
structure ExchangesDone (n : Nat) (s t : State) : Prop where
  framer : t.framer = { s.framer with idx := n - 1 }
  bx : t.xchg.bx = .idle
  lines : t.lines = (s.lines.drive .cmd true).drive .clk true
  env : t.env = { s.env with dataIn := s.env.dataIn.drop (8 * n) }
  trace : t.trace = ((List.range n).flatMap fun i =>
    exchangeEvents (s.framer.wireByte i) (replyByte s.env.dataIn i)).reverse ++ s.trace
  reads : ∀ i, Memory.read t.buf i = if i < n then some (replyByte s.env.dataIn i) else Memory.read s.buf i
  others : t.seq = s.seq ∧ t.out = s.out ∧ t.cache = s.cache ∧ t.flags = s.flags ∧ t.params = s.params ∧
    t.powerOns = s.powerOns
  memory : Memory.wf s.buf → Memory.wf t.buf
  range : ∀ b, n ≤ b → (∀ c ∈ s.buf, c.1 < b) → ∀ c ∈ t.buf, c.1 < b

theorem foldl_exchangeAt_done (n : Nat) (s : State) :
    ExchangesDone (n + 1) s ((List.range (n + 1)).foldl exchangeAt s) := by
  induction n with
  | zero =>
    have h : (List.range 1).foldl exchangeAt s = exchangeAt s 0 := rfl
    rw [h, exchangeAt_eq]
    refine ⟨rfl, rfl, rfl, rfl, ?_, fun i => ?_, ⟨rfl, rfl, rfl, rfl, rfl, rfl⟩,
      Memory.wf_write 0 _, fun b hn h => Memory.range_write _ h hn⟩
    · simp
    · simp only [Memory.read_write]
      by_cases hi : i = 0 <;> simp [hi]
  | succ n ih =>
    rw [List.range_succ, List.foldl_append]
    generalize hu : (List.range (n + 1)).foldl exchangeAt s = u at ih
    simp only [List.foldl_cons, List.foldl_nil]
    rw [exchangeAt_eq]
    have hr : replyByte u.env.dataIn 0 = replyByte s.env.dataIn (n + 1) := by
      rw [ih.env]; exact replyByte_drop _ _ 0
    have hw : u.framer.wireByte (n + 1) = s.framer.wireByte (n + 1) := by rw [ih.framer]; rfl
    refine ⟨?_, rfl, ?_, ?_, ?_, fun i => ?_, ih.others,
      fun h => Memory.wf_write _ _ (ih.memory h),
      fun b hn h => Memory.range_write _ (ih.range b (by omega) h) hn⟩
    · simp [ih.framer]
    · simp [ih.lines, Lines.drive]
    · simp [ih.env, List.drop_drop, Nat.mul_add]
    · simp only [hr, hw, ih.trace]
      rw [List.range_succ (n := n + 1)]
      simp
    · simp only [hr, Memory.read_write, ih.reads]
      by_cases hi : i = n + 1
      · simp [hi]
      · by_cases hl : i < n + 1
        · simp [hi, hl, Nat.lt_succ_of_lt hl]
        · have : ¬ i < n + 1 + 1 := by omega
          simp [hi, hl, this]

theorem responseLength_ge (m : Byte) : 3 ≤ responseLength m := by simp [responseLength]

theorem responseLength_le (m : Byte) : responseLength m ≤ 33 := by
  have h : ∀ m : Byte, responseLength m ≤ 33 := by decide
  exact h m

theorem responseLength_odd (m : Byte) : responseLength m % 2 = 1 := by
  have h : ∀ m : Byte, responseLength m % 2 = 1 := by decide
  exact h m

/-- A transaction is its assertion, the exchanges at the indices 0 to N - 1, and its deassertion. -/
theorem frame_eq (s : State) :
    frame s =
      (let a := wait .att (wr .att false s)
       let u := (List.range (replyLength s.env.dataIn)).foldl exchangeAt a
       let v := { u with framer := { u.framer with recvSize := replyLength s.env.dataIn } }
       let w := wait .att (wr .att true v)
       { w with framer := { w.framer with fr := .idle } }) := by
  have key : ∀ a : State, a.env = s.env →
      (bodyIndices (responseLength (bufAt (exchangeAt (exchangeAt a 0) 1) 1))).foldl exchangeAt
          (exchangeAt (exchangeAt a 0) 1) =
        (List.range (replyLength s.env.dataIn)).foldl exchangeAt a ∧
      responseLength (bufAt (exchangeAt (exchangeAt a 0) 1) 1) = replyLength s.env.dataIn := by
    intro a ha
    have h2 := foldl_exchangeAt_done 1 a
    have hl : (List.range 2).foldl exchangeAt a = exchangeAt (exchangeAt a 0) 1 := rfl
    rw [hl] at h2
    have hb : bufAt (exchangeAt (exchangeAt a 0) 1) 1 = replyByte s.env.dataIn 1 := by
      refine bufAt_of_read ?_
      rw [h2.reads, ha]; rfl
    rw [hb]
    refine ⟨?_, rfl⟩
    rw [replyLength, bodyIndices]
    have hn := responseLength_ge (replyByte s.env.dataIn 1)
    generalize responseLength (replyByte s.env.dataIn 1) = n at hn
    obtain ⟨m, rfl⟩ := Nat.exists_eq_add_of_le hn
    rw [List.range_eq_range', show 3 + m = 2 + (m + 1) by omega, ← List.range'_append (step := 1)]
    simp only [List.foldl_append, Nat.add_sub_cancel_left]
    rfl
  obtain ⟨hf, hn⟩ := key (wait .att (wr .att false s)) rfl
  simp only [frame, hn]
  rw [hn] at hf
  rw [foldl_exchangeAt_recvSize, hf]

/-- What the transaction of the latched command does (R111 to R122). -/
theorem frame_done (s : State) (h1 : 1 ≤ s.framer.cmdLen) (h2 : s.framer.cmdLen ≤ s.framer.cmdBuf.length) :
    TransactionDone (s.framer.cmdBuf.take s.framer.cmdLen) s (frame s) := by
  rw [frame_eq]
  dsimp only
  have hge : 3 ≤ replyLength s.env.dataIn := responseLength_ge _
  obtain ⟨m, hm⟩ : ∃ m, replyLength s.env.dataIn = m + 1 := ⟨replyLength s.env.dataIn - 1, by omega⟩
  have hd := foldl_exchangeAt_done m (wait .att (wr .att false s))
  rw [← hm] at hd
  generalize (List.range (replyLength s.env.dataIn)).foldl exchangeAt (wait .att (wr .att false s)) = u at hd
  have hsent : ∀ i, s.framer.wireByte i = sentByte (s.framer.cmdBuf.take s.framer.cmdLen) i := by
    intro i
    simp only [FramerRegs.wireByte, sentByte, FramerRegs.commandByte, List.getElem?_take]
    by_cases h0 : i = 0
    · simp [h0]
    · by_cases hi : i = 1
      · subst hi
        simp [show 0 < s.framer.cmdLen by omega]
      · by_cases hl : i - 1 < s.framer.cmdLen <;> simp [h0, hi, hl]
  have hlen : (s.framer.cmdBuf.take s.framer.cmdLen).length = s.framer.cmdLen := by simpa using h2
  obtain ⟨o1, o2, o3, o4, o5, o6⟩ := hd.others
  refine ⟨fun i hi => ?_, fun i hi => ?_, rfl, ?_, ?_, ?_, rfl, hd.bx, ?_, hd.env, ?_, ?_⟩
  · have := hd.reads i
    rw [if_pos hi] at this
    exact this
  · have := hd.reads i
    rw [if_neg (by omega)] at this
    exact this
  · simp [hd.framer]
  · simp [hd.framer, hlen]
  · simp [hd.framer, hlen]
  · simp [hd.lines, Lines.drive, linesHigh]
  · simp [hd.trace, transactionEvents, hsent]
  · simp [o1, o2, o3, o4, o5, o6]

/-- What SEND does (R111 to R122). -/
theorem send_done (cmd : List Byte) (s : State) (h : legalCommand s.params cmd = true) :
    TransactionDone cmd s (send cmd s) := by
  simp only [legalCommand, Bool.and_eq_true, decide_eq_true_eq] at h
  have hf := frame_done (latchCommand cmd s) (by simpa using h.1) (by simp)
  have hc : (latchCommand cmd s).framer.cmdBuf.take (latchCommand cmd s).framer.cmdLen = cmd := by simp
  rw [hc] at hf
  refine ⟨hf.replies, hf.beyond, hf.recvSize, hf.idx, hf.cmdLen, ?_, hf.fr, hf.bx, hf.lines, hf.env, hf.events,
    hf.others⟩
  have := hf.cmdBuf
  simp only [latchCommand_framer] at this
  rw [send, this]
  simp

/-- A transaction keeps the canonical form of `BUF`, and lists no index beyond the longest reply (R51, R73). -/
theorem frame_wf (s : State) :
    (Memory.wf s.buf → Memory.wf (frame s).buf) ∧
      ∀ b, 33 ≤ b → (∀ c ∈ s.buf, c.1 < b) → ∀ c ∈ (frame s).buf, c.1 < b := by
  rw [frame_eq]
  dsimp only
  have hge : 3 ≤ replyLength s.env.dataIn := responseLength_ge _
  have hle : replyLength s.env.dataIn ≤ 33 := responseLength_le _
  obtain ⟨m, hm⟩ : ∃ m, replyLength s.env.dataIn = m + 1 := ⟨replyLength s.env.dataIn - 1, by omega⟩
  have hd := foldl_exchangeAt_done m (wait .att (wr .att false s))
  rw [← hm] at hd
  exact ⟨hd.memory, fun b hb => hd.range b (by omega)⟩

theorem send_wf (cmd : List Byte) (s : State) :
    (Memory.wf s.buf → Memory.wf (send cmd s).buf) ∧
      ∀ b, 33 ≤ b → (∀ c ∈ s.buf, c.1 < b) → ∀ c ∈ (send cmd s).buf, c.1 < b :=
  frame_wf (latchCommand cmd s)

end Sys2Proof.Machine

open Sys2Proof.Machine in
/-- A transaction leaves everything outside the lines, the Bit Exchange Engine, the Framer, `BUF`, the answers and the
trace as it was. -/
theorem Sys2Proof.TransactionDone.unchanged {cmd : List Byte} {s t : State} (h : TransactionDone cmd s t) :
    t.seq = s.seq ∧ t.out = s.out ∧ t.cache = s.cache ∧ t.flags = s.flags ∧ t.params = s.params ∧
      t.powerOns = s.powerOns := by
  have e := h.others
  generalize t.lines = l, t.xchg = x, t.framer = f, t.buf = b, t.env = v, t.trace = r at e
  subst e
  exact ⟨rfl, rfl, rfl, rfl, rfl, rfl⟩
end

