-- ==== Sys2Proof/Laws/PerInstr.lean ====
section
/-!
SUPPORT. What holds of every instruction as syntax, one lemma per constructor: the form of its encoding.
-/

/-- The encoding of a well-formed instruction is one byte, or for a wire command 1 to `CMD_CAP` bytes (R74, R77, R88). -/
def Sys2Proof.Laws.EncodeForm.Statement (i : Sys2Proof.Instr) : Prop :=
  ∀ (p : Sys2Proof.Params) (f : Sys2Proof.Format) (bs : List Sys2Proof.Byte), p.Wf → i.wf p = true →
    Sys2Proof.encode p i = some (f, bs) →
    (f = .wireCommand → Sys2Proof.legalCommand p bs = true) ∧ (f ≠ .wireCommand → bs.length = 1)

namespace Sys2Proof.Laws.EncodeForm

/-- One byte at the host or mode level. -/
theorem of_byte {i : Instr} {g : Format} {w : Byte} (hg : g ≠ .wireCommand)
    (he : ∀ p, encode p i = some (g, [w])) : Statement i := by
  intro p f bs _ _ h
  rw [he p] at h
  obtain ⟨rfl, rfl⟩ := by simpa using h
  exact ⟨fun h => absurd h hg, fun _ => rfl⟩

/-- A legal command at the wire level. -/
theorem of_command {i : Instr} {c : Params → List Byte} (hc : ∀ p, p.Wf → legalCommand p (c p) = true)
    (he : ∀ p, encode p i = some (.wireCommand, c p)) : Statement i := by
  intro p f bs hp _ h
  rw [he p] at h
  obtain ⟨rfl, rfl⟩ := by simpa using h
  exact ⟨fun _ => hc p hp, fun h => absurd rfl h⟩

/-- No encoding at all. -/
theorem of_none {i : Instr} (he : ∀ p, encode p i = none) : Statement i := by
  intro p f bs _ _ h
  rw [he p] at h
  cases h

theorem init : Statement .init := of_byte (by decide) fun _ => rfl
theorem poll : Statement .poll := of_byte (by decide) fun _ => rfl
theorem setMode (target : Target) (lock : Bool) : Statement (.setMode target lock) :=
  of_byte (g := .hostCommand) (by decide) fun _ => rfl
theorem hostReserved (w : Byte) : Statement (.hostReserved w) :=
  of_byte (g := .hostCommand) (by decide) fun _ => rfl
theorem pollCmd : Statement .pollCmd := of_command (fun p _ => pollBytes_legal p) fun _ => rfl
theorem cfgEnter : Statement .cfgEnter := of_command (fun p _ => cfgEnterBytes_legal p) fun _ => rfl
theorem cfgExit : Statement .cfgExit := of_command (fun p _ => cfgExitBytes_legal p) fun _ => rfl
theorem setModeCmd (analogFlag lockFlag : Byte) : Statement (.setModeCmd analogFlag lockFlag) :=
  of_command (fun p _ => setModeBytes_legal p analogFlag lockFlag) fun _ => rfl
theorem pressEn (slot : Fin 12) : Statement (.pressEn slot) :=
  of_command (c := fun p => pressEnBytes p slot) (fun _ h => h.pressEnLegal slot) fun _ => rfl
theorem pressCfg : Statement .pressCfg := of_command (c := pressCfgBytes) (fun _ h => h.pressCfgLegal) fun _ => rfl
theorem modeDigital : Statement .modeDigital := of_byte (by decide) fun _ => rfl
theorem modeAnalog : Statement .modeAnalog := of_byte (by decide) fun _ => rfl
theorem modePressure : Statement .modePressure := of_byte (by decide) fun _ => rfl
theorem modeConfig : Statement .modeConfig := of_byte (by decide) fun _ => rfl
theorem modeOther (b : Byte) : Statement (.modeOther b) := of_byte (g := .modeByte) (by decide) fun _ => rfl
theorem frame : Statement .frame := of_none fun _ => rfl
theorem exchange (b : Byte) : Statement (.exchange b) := of_none fun _ => rfl
theorem send (cmd : List Byte) : Statement (.send cmd) := of_none fun _ => rfl
theorem decode : Statement .decode := of_none fun _ => rfl
theorem negotiate : Statement .negotiate := of_none fun _ => rfl

end Sys2Proof.Laws.EncodeForm
end

