-- ==== Sys2Proof/Laws/Step.lean ====
section
/-!
SUPPORT. What a step can be, said once: `step_cases`, `cycle_cases`, `trySend_eq_next`, and the outcomes of the shared
operations of POLL and the handshake.
-/

namespace Sys2Proof.Machine

/-- A SEND that answers a next state had its lines ready and a legal command, and is that transaction. -/
theorem trySend_eq_next {cmd : List Byte} {s t : State} :
    trySend cmd s = .next t ↔ linesReady s = true ∧ legalCommand s.params cmd = true ∧ send cmd s = t := by
  unfold trySend
  by_cases h1 : linesReady s = true <;> by_cases h2 : legalCommand s.params cmd = true <;> simp [h1, h2]

theorem trySend_of_ready {cmd : List Byte} {s : State} (h1 : linesReady s = true)
    (h2 : legalCommand s.params cmd = true) : trySend cmd s = .next (send cmd s) := trySend_eq_next.mpr ⟨h1, h2, rfl⟩

theorem mapNext_eq_next {f : State → State} {o : Outcome} {t : State} :
    mapNext f o = .next t ↔ ∃ u, o = .next u ∧ f u = t := by
  cases o <;> simp [mapNext]

/-- Where no reset comes a step is a cycle. -/
theorem step_eq_cycle {s : State} (h : resetAt s 0 = none) : step s = cycle s := by
  simp [step, cycleWithReset, h]

/-- Where the reset input is asserted from the start of the step, the step is the reset (R210). -/
theorem step_eq_reset {s : State} (h : resetAt s 0 = some 0) : step s = .next (hardReset (takeInputs s)) := by
  simp [step, cycleWithReset, h]

/-- Where it is asserted later in the step, the reset lands on the cycle (R213). -/
theorem step_eq_land {s : State} {n : Nat} (h : resetAt s 0 = some (n + 1)) :
    step s = mapNext (landReset (n + 1) s) (cycle s) := by
  simp [step, cycleWithReset, h]

/-- A step that answers a next state is a cycle, the reset input asserted from its start, or a cycle on which the reset
lands. -/
theorem step_cases {s t : State} (h : step s = .next t) :
    (resetAt s 0 = none ∧ cycle s = .next t) ∨
      (resetAt s 0 = some 0 ∧ t = hardReset (takeInputs s)) ∨
      ∃ n u, resetAt s 0 = some (n + 1) ∧ cycle s = .next u ∧ t = landReset (n + 1) s u := by
  rcases hr : resetAt s 0 with _ | _ | n
  · exact .inl ⟨rfl, step_eq_cycle hr ▸ h⟩
  · exact .inr (.inl ⟨rfl, by simpa [step_eq_reset hr] using h.symm⟩)
  · obtain ⟨u, hu, ht⟩ := mapNext_eq_next.mp (step_eq_land hr ▸ h)
    exact .inr (.inr ⟨n, u, rfl, hu, ht.symm⟩)

/-- Wherever it lands, a reset leaves the reset state but for the parameters, the inputs, the trace and the count of
resets. -/
theorem landReset_eq (n : Nat) (s t : State) :
    ∃ levels events, landReset n s t =
      { State.resetWith t.params with
        env := { t.env with dataIn := levels }
        trace := events ++ s.trace
        powerOns := t.powerOns + 1 } :=
  ⟨_, _, rfl⟩

/-- A cycle that answers a next state took a row of the small-step form, an instruction within an operation, an
instruction the host presented, or nothing. -/
theorem cycle_cases {s t : State} (h : cycle s = .next t) :
    (atBoundary s = false ∧ transactionStep (takeInputs s) = .next t) ∨
      (atBoundary s = true ∧ s.flags.busy = true ∧
        ∃ i u, fetch s = some i ∧ exec i (takeInputs s) = .next u ∧ advance u = t) ∨
      (atBoundary s = true ∧ s.flags.busy = false ∧ ∃ i, fetch s = some i ∧ exec i (takeInputs s) = .next t) ∨
      (atBoundary s = true ∧ fetch s = none ∧ idleStep (takeInputs s) = .next t) := by
  unfold cycle at h
  split at h
  · rename_i hb
    split at h
    · rename_i i hf
      split at h
      · rename_i hbusy
        obtain ⟨u, hu, ht⟩ := mapNext_eq_next.mp h
        exact .inr (.inl ⟨hb, hbusy, i, u, hf, hu, ht⟩)
      · rename_i hbusy
        exact .inr (.inr (.inl ⟨hb, by simpa using hbusy, i, hf, h⟩))
    · rename_i hf
      exact .inr (.inr (.inr ⟨hb, hf, h⟩))
  · rename_i hb
    exact .inl ⟨by simpa using hb, h⟩

/-- The foot of the handshake's loop: confirmed, timed out, or the next attempt (R135 to R137). -/
theorem confirmCheck_cases (s : State) :
    (targetConfirmed s = true ∧ confirmCheck s = endOp s) ∨
      (targetConfirmed s = false ∧ capReached s = true ∧ confirmCheck s = raiseError .negotiationTimeout s) ∨
      (targetConfirmed s = false ∧ capReached s = false ∧ confirmCheck s = startAttempt s) := by
  unfold confirmCheck
  by_cases h : targetConfirmed s = true
  · exact .inl ⟨h, by simp [h, endOp]⟩
  · by_cases hc : capReached s = true
    · exact .inr (.inl ⟨by simpa using h, hc, by simp [h, hc]⟩)
    · exact .inr (.inr ⟨by simpa using h, by simpa using hc, by simp [h, hc]⟩)

/-- POLL between its transaction and DECODE: the strict raise, "no change", or the cache refreshed and DECODE to
come (R169). -/
theorem compareReply_cases (s : State) :
    ((s.params.strictMode && unrecognised (modeByte s)) = true ∧
        compareReply s = raiseError .unrecognizedMode (refreshCache s)) ∨
      ((s.params.strictMode && unrecognised (modeByte s)) = false ∧
        (s.params.changeDetect && sameReply s) = true ∧
        compareReply s = endOp (setChanged false (refreshCache s))) ∨
      ((s.params.strictMode && unrecognised (modeByte s)) = false ∧
        (s.params.changeDetect && sameReply s) = false ∧ compareReply s = refreshCache s) := by
  have hm : modeByte (refreshCache s) = modeByte s := rfl
  unfold compareReply
  simp only [refreshCache_params, hm]
  by_cases h : (s.params.strictMode && unrecognised (modeByte s)) = true
  · exact .inl ⟨h, by simp [h]⟩
  · by_cases hc : (s.params.changeDetect && sameReply s) = true
    · exact .inr (.inl ⟨by simpa using h, hc, by simp [h, hc]⟩)
    · exact .inr (.inr ⟨by simpa using h, by simpa using hc, by simp [h, hc]⟩)

/-- The outcomes of DECODE: one of the three layouts, or the strict raise (R148). -/
theorem decodeReply_cases (s : State) :
    (modeByte s = 0x79 ∧ decodeReply s = layoutPressure s) ∨
      (modeByte s = 0x73 ∧ decodeReply s = layoutAnalog s) ∨
      (modeByte s ≠ 0x79 ∧ modeByte s ≠ 0x73 ∧ (s.params.strictMode && unrecognised (modeByte s)) = false ∧
        decodeReply s = layoutDigital s) ∨
      (modeByte s ≠ 0x79 ∧ modeByte s ≠ 0x73 ∧ (s.params.strictMode && unrecognised (modeByte s)) = true ∧
        decodeReply s = raiseError .unrecognizedMode s) := by
  unfold decodeReply layoutOther
  generalize modeByte s = m
  by_cases h1 : m = 0x41
  · subst h1
    exact .inr (.inr (.inl ⟨by decide, by decide, by simp [unrecognised], rfl⟩))
  by_cases h2 : m = 0x73
  · subst h2
    exact .inr (.inl ⟨rfl, rfl⟩)
  by_cases h3 : m = 0x79
  · subst h3
    exact .inl ⟨rfl, rfl⟩
  have hm : modeOf m = .config ∧ m = 0xF3 ∨ modeOf m = .unrecognised m := by
    unfold modeOf
    rw [if_neg h1, if_neg h2, if_neg h3]
    by_cases h4 : m = 0xF3
    · exact .inl ⟨if_pos h4, h4⟩
    · exact .inr (if_neg h4)
  by_cases hs : (s.params.strictMode && unrecognised m) = true
  · refine .inr (.inr (.inr ⟨h3, h2, hs, ?_⟩))
    obtain ⟨hm, rfl⟩ | hm := hm <;> rw [hm] <;> exact if_pos hs
  · refine .inr (.inr (.inl ⟨h3, h2, by simpa using hs, ?_⟩))
    obtain ⟨hm, rfl⟩ | hm := hm <;> rw [hm] <;> exact if_neg hs

end Sys2Proof.Machine
end

