-- ==== Sys2Proof/Laws/Sound.lean ====
section
/-!
SUPPORT. Sound states: lines ready, no transaction in progress; what a transaction and a move of the sequencer keep.
-/

namespace Sys2Proof

open Sys2Proof.Machine

variable {s t : State}

theorem Sound.ready (h : Sound s) (hi : s.flags.initialised = true) : linesReady s = true := by
  simp [linesReady, hi, h.linesSet hi, Lines.configured, OutputLine.configured]

theorem Sound.boundary (h : Sound s) : atBoundary s = true := by
  simp [atBoundary, h.framerIdle, h.exchangeIdle]

/-- A transaction keeps a sound state sound. -/
theorem Sound.send {cmd : List Byte} (h : Sound s) (hi : s.flags.initialised = true)
    (hl : legalCommand s.params cmd = true) : Sound (send cmd s) := by
  have hd := send_done cmd s hl
  obtain ⟨hw, hrange⟩ := send_wf cmd s
  generalize Machine.send cmd s = t at *
  obtain ⟨h1, h2, h3, h4, h5, -⟩ := hd.unchanged
  have hlen : 1 ≤ cmd.length ∧ cmd.length ≤ s.params.cmdCap.val := by simpa [legalCommand] using hl
  have hb := h.bufferSize
  have hr : 3 ≤ replyLength s.env.dataIn ∧ replyLength s.env.dataIn ≤ 33 ∧ replyLength s.env.dataIn % 2 = 1 :=
    ⟨responseLength_ge _, responseLength_le _, responseLength_odd _⟩
  constructor
  case memory => exact hw h.memory
  case memoryRange => rw [h5]; exact hrange _ s.params.bufCap.property h.memoryRange
  case framerIdle => exact hd.fr
  case exchangeIdle => exact hd.bx
  case linesSet => intro _; rw [hd.lines, h.linesSet hi]; rfl
  case linesUnset => rw [h4, hi]; simp
  case bufferSize => rw [hd.cmdBuf, h5]; simp; omega
  case idxRange => rw [hd.idx]; omega
  case recvRange => rw [hd.recvSize]; exact hr
  case lenRange => rw [hd.cmdLen, h5]; exact hlen
  case params => rw [h5]; exact h.params
  case busyOp => rw [h4, h1]; exact h.busyOp
  case negOp => rw [h1]; exact h.negOp
  case notConfirmed => rw [h1]; exact h.notConfirmed
  case busyReady => rw [h4]; exact h.busyReady
  case syncRange => rw [h1, h5]; exact h.syncRange
  case syncBurst => rw [h1]; exact h.syncBurst
  case syncResync => rw [h1]; exact h.syncResync
  case attemptNone => rw [h1, h5]; exact h.attemptNone
  case attemptCap => rw [h1, h5]; exact h.attemptCap
  case errBusy => rw [h4]; exact h.errBusy
  case errTimeout => rw [h4, h5]; exact h.errTimeout
  case errMode => rw [h4, h5]; exact h.errMode
  case intensityAxes => rw [h2]; exact h.intensityAxes
  case cacheReady => rw [h3, h4]; exact h.cacheReady

/-- A move of the sequencer that keeps the operation and the ranges keeps a sound state sound. -/
theorem Sound.move (h : Sound s) (q : SequencerRegs) (ho : q.op = s.seq.op)
    (hn : q.neg = .idle ↔ s.seq.neg = .idle) (hc : q.neg ≠ .confirmed)
    (hs : q.syncCtr ≤ max s.params.resyncCount s.params.initSyncCount) (hb : q.op = .init → 1 ≤ q.syncCtr)
    (hr : q.neg = .resyncing → 1 ≤ q.syncCtr) (ha : s.params.retryCap = none → q.attempt = 0)
    (hk : ∀ k, s.params.retryCap = some k → q.attempt ≤ k) : Sound { s with seq := q } :=
  { h with
    busyOp := by simpa [ho] using h.busyOp
    negOp := hn.trans (by simpa [ho] using h.negOp)
    notConfirmed := hc
    syncRange := hs
    syncBurst := hb
    syncResync := hr
    attemptNone := ha
    attemptCap := hk }

/-- The environment and the history play no part. -/
theorem Sound.withEnv (h : Sound s) (env : Inputs) (trace : List PinEvent) :
    Sound { s with env := env, trace := trace } :=
  { h with }

end Sys2Proof
end

