-- ==== Sys2Proof/Tests/Slice0.lean ====
section
/-!
SUPPORT. Tests on the vectors of spec/95_test_vectors.md, and for every obligation with hypotheses a state and operands
that meet them.
-/

namespace Sys2Proof.Tests

open Sys2Proof.Machine

set_option maxRecDepth 100000

/-! ### States to test on -/

/-- The parameters of 95_test_vectors.md: the defaults, `INIT_SYNC_COUNT` = 2, `RESYNC_COUNT` = 1, and the stand-ins of
program P7 for the pressure commands. -/
def params : Params where
  tHalf := 3
  tByte := 5
  tAtt := 7
  bufCap := ⟨33, by decide⟩
  cmdCap := ⟨32, by decide⟩
  pollCmd := ⟨[0x42], by decide⟩
  afDigital := 0x00
  afAnalog := 0x01
  lfUnlock := 0x00
  lfLock := 0x03
  pressEn := #v[[0xE0], [0xE1], [0xE2], [0xE3], [0xE4], [0xE5], [0xE6], [0xE7], [0xE8], [0xE9], [0xEA], [0xEB]]
  pressCfg := [0xEF]
  resyncCount := 1
  initSyncCount := 2
  retryCap := none
  strictMode := false
  changeDetect := true
  pressMap := #v[5, 7, 4, 6, 12, 13, 14, 15, 10, 11, 8, 9]

theorem params_wf : params.Wf where
  flagsDiffer := by decide
  locksDiffer := by decide
  pressEnLegal := by decide
  pressCfgLegal := by decide
  resyncPositive := by decide
  initSyncPositive := by decide
  capPositive := by intro k h; cases h
  mapInjective := by decide

/-- The hardened variant with the cap `k`. -/
def capped (k : Nat) : Params := { params with retryCap := some k }

theorem capped_wf (k : Nat) (h : 1 ≤ k) : (capped k).Wf :=
  { params_wf with capPositive := by intro j hj; cases hj; exact h }

/-- After reset, with the parameters `p`. -/
def fresh (p : Params) : State := State.resetWith p

/-- Initialised and idle. -/
def ready (p : Params) : State :=
  { fresh p with lines := Lines.configured, flags := { busy := false, initialised := true, changed := false, err := .noError } }

theorem ready_sound (p : Params) (h : p.Wf) : Sound (ready p) := by
  constructor <;> first | exact h | simp [ready, fresh, State.resetWith, Memory.wf, p.one_le_cmdCap]

/-- At work on a SET_MODE Pressure, lock, at the start of its first attempt. -/
def working (p : Params) : State :=
  { ready p with
    flags := { busy := true, initialised := true, changed := false, err := .noError }
    seq :=
      { op := .setMode, neg := .enteringConfig, subseq := .mode, slot := 0, syncCtr := 0,
        attempt := if p.retryCap.isSome then 1 else 0, target := .pressure, lock := true } }

theorem working_sound (p : Params) (h : p.Wf) : Sound (working p) := by
  have hk := h.capPositive
  constructor <;> first | exact h | skip
  case attemptNone => intro hn; replace hn : p.retryCap = none := hn; simp [working, hn]
  case attemptCap => intro k hn; replace hn : p.retryCap = some k := hn; simpa [working, hn] using hk k hn
  all_goals simp [working, ready, fresh, State.resetWith, Memory.wf, p.one_le_cmdCap]

/-- At work at a position of the handshake. -/
def at_ (p : Params) (t : Target) (n : Neg) (q : SubSeq) (k : Fin 12) (c : Nat) : State :=
  { working p with seq := { (working p).seq with neg := n, subseq := q, slot := k, syncCtr := c, target := t } }

theorem at_sound (p : Params) (h : p.Wf) (t : Target) (n : Neg) (q : SubSeq) (k : Fin 12) (c : Nat)
    (hn : n ≠ .idle) (hc : n ≠ .confirmed) (hr : n = .resyncing → 1 ≤ c)
    (hs : c ≤ max p.resyncCount p.initSyncCount) : Sound (at_ p t n q k c) :=
  (working_sound p h).move _ rfl (by simpa [working] using hn) hc hs (by simp [working]) hr
    (working_sound p h).attemptNone (working_sound p h).attemptCap

/-- The answers of Data that spell a byte, and a reply (R104). -/
def answers (b : Byte) : List Level := bitOrder.map fun n => b.getLsbD n
def reply (bs : List Byte) : List Level := bs.flatMap answers

/-- `s` with the coming answers of Data. -/
def hear (levels : List Level) (s : State) : State := { s with env := { s.env with dataIn := levels } }

/-- `s` with the host presenting `w` at the coming step. -/
def ask (w : Byte) (s : State) : State := { s with env := { s.env with hostIn := [some w] } }

/-- `s` with `BUF[0 ..]`. -/
def hold (bs : List Byte) (s : State) : State :=
  bs.zipIdx.foldl (fun s c => storeBuf c.2 c.1 s) s

/-- Whether an outcome is a next state with a property. -/
def next (o : Outcome) (f : State → Bool) : Bool :=
  match o with
  | .next t => f t
  | .fault _ => false
  | .refused _ => false

/-- The levels driven on Command, in order. -/
def commandLevels (s : State) : List Level :=
  s.trace.reverse.filterMap fun e =>
    match e with
    | .wr .cmd l => some l
    | .wr .att _ => none
    | .wr .clk _ => none
    | .cfg => none
    | .rd _ => none
    | .wait _ => none

/-- The levels on Command of the bytes `bs`, each released High at its end (R71). -/
def driven (bs : List Byte) : List Level := bs.flatMap fun b => answers b ++ [true]

/-- One transaction that sends `bs` and leaves the reply `r` in `BUF`. -/
def sends (o : Outcome) (bs r : List Byte) : Bool :=
  next o fun t =>
    commandLevels t == driven bs && t.trace.length == 50 * r.length + 4 &&
      r.zipIdx.all fun c => bufAt t c.2 == c.1

/-- The replies of P2. -/
def digitalReply : List Byte := [0xFF, 0x41, 0x5A, 0xFF, 0xFF]
def configReply : List Byte := [0xFF, 0xF3, 0x5A, 0, 0, 0, 0, 0, 0]
def analogReply : List Byte := [0xFF, 0x73, 0x5A, 0xFF, 0xFF, 0x80, 0x80, 0x40, 0xC0]

/-! ### Well-formed instructions: an ill-formed term for each check -/

theorem test_wf_hostReserved :
    (Instr.hostReserved 0x03).wf params = true ∧ (Instr.hostReserved 0x1C).wf params = false := by decide
theorem test_wf_modeOther :
    (Instr.modeOther 0x53).wf params = true ∧ (Instr.modeOther 0x79).wf params = false := by decide
theorem test_wf_send :
    (Instr.send [0x42]).wf params = true ∧ (Instr.send []).wf params = false ∧
      (Instr.send (List.replicate 32 0)).wf params = true ∧
      (Instr.send (List.replicate 33 0)).wf params = false := by decide

/-! ### Decoding: every encoding written out -/

/-- V50, V58. -/
theorem test_decode_init : decodeHost 0b00000000 = .init ∧ decodeHost 0b00011100 = .init := by decide
/-- V51. -/
theorem test_decode_poll : decodeHost 0b00000001 = .poll := by decide
/-- V52 to V57. -/
theorem test_decode_setMode :
    decodeHost 0b00000010 = .setMode .digital false ∧ decodeHost 0b00010010 = .setMode .digital true ∧
      decodeHost 0b00000110 = .setMode .analog false ∧ decodeHost 0b00010110 = .setMode .analog true ∧
      decodeHost 0b00001010 = .setMode .pressure false ∧ decodeHost 0b00011010 = .setMode .pressure true := by decide
/-- V59 to V61. -/
theorem test_decode_hostReserved :
    decodeHost 0b00000011 = .hostReserved 0x03 ∧ decodeHost 0b00001110 = .hostReserved 0x0E ∧
      decodeHost 0b00100001 = .hostReserved 0x21 := by decide
/-- R82. -/
theorem test_decode_pollCmd : decode params .wireCommand [0b01000010] = .ok .pollCmd := by decide
/-- R83. -/
theorem test_decode_cfgEnter :
    decode params .wireCommand [0b01000011, 0b00000000, 0b00000001] = .ok .cfgEnter := by decide
/-- R84. -/
theorem test_decode_cfgExit :
    decode params .wireCommand [0b01000011, 0, 0, 0b01011010, 0b01011010, 0b01011010, 0b01011010, 0b01011010] =
      .ok .cfgExit := by decide
/-- R85. -/
theorem test_decode_setModeCmd :
    decode params .wireCommand [0b01000100, 0b00000000, 0b00000001, 0b00000011] = .ok (.setModeCmd 0x01 0x03) := by
  decide
/-- The stand-ins of P7. -/
theorem test_decode_pressure :
    decode params .wireCommand [0b11100000] = .ok (.pressEn 0) ∧
      decode params .wireCommand [0b11101011] = .ok (.pressEn 11) ∧
      decode params .wireCommand [0b11101111] = .ok .pressCfg := by decide
/-- R88. -/
theorem test_decode_modes :
    decode params .modeByte [0b01000001] = .ok .modeDigital ∧ decode params .modeByte [0b01110011] = .ok .modeAnalog ∧
      decode params .modeByte [0b01111001] = .ok .modePressure ∧
      decode params .modeByte [0b11110011] = .ok .modeConfig ∧
      decode params .modeByte [0b01010011] = .ok (.modeOther 0x53) := by decide
/-- What is no instruction is rejected by name. -/
theorem test_decode_rejects :
    decode params .wireCommand [0x43, 0x00, 0x02] = .error .unknownCommand ∧
      decode params .wireCommand [] = .error .empty ∧ decode params .hostCommand [0, 0] = .error .tooLong := by decide
/-- The rows without an encoding. -/
theorem test_encode_none :
    [Instr.frame, .exchange 0x42, .send [0x42], .decode, .negotiate].all fun i => (encode params i).isNone := by decide

/-! ### EXCHANGE and SEND -/

/-- V2. -/
theorem test_exchange_v2 :
    next (exec (.exchange 0x42) (hear (answers 0x41) (ready params))) (fun t =>
      t.xchg.rx == 0x41 && commandLevels t == [false, true, false, false, false, false, true, false, true] &&
        t.trace.length == 50) = true := by decide
/-- V4. -/
theorem test_exchange_v4 :
    next (exec (.exchange 0xFF) (hear (answers 0x00) (ready params))) (fun t => t.xchg.rx == 0x00) = true := by decide
/-- V22. -/
theorem test_send_v22 :
    next (exec (.send [0x42]) (hear (reply [0xAA, 0x41, 0x5A, 0xEF, 0xBF])
      (hold [0x01, 0x73, 0x00, 0xFF, 0xFF, 0x80, 0x80, 0x40, 0xC0] (ready params)))) (fun t =>
        t.framer.recvSize == 5 && [0xAA, 0x41, 0x5A, 0xEF, 0xBF, 0x80, 0x80, 0x40, 0xC0].zipIdx.all fun c =>
          bufAt t c.2 == c.1) = true := by decide
/-- V20, by the general SEND. -/
theorem test_send_v20 :
    sends (exec (.send [0x44, 0x00, 0x01, 0x03]) (hear (reply digitalReply) (ready params)))
      [0x01, 0x44, 0x00, 0x01, 0x03] digitalReply = true := by decide
/-- R72, with the command of V17 latched. -/
theorem test_frame :
    sends (exec .frame (hear (reply configReply) (latchCommand cfgExitBytes (ready params))))
      [0x01, 0x43, 0x00, 0x00, 0x5A, 0x5A, 0x5A, 0x5A, 0x5A] configReply = true := by decide
/-- V10. -/
theorem test_pollCmd_v10 :
    sends (exec .pollCmd (hear (reply digitalReply) (ready params))) [0x01, 0x42, 0, 0, 0] digitalReply = true := by
  decide
/-- V13. -/
theorem test_pollCmd_v13 :
    sends (exec .pollCmd (hear (reply [0, 0, 0]) (ready params))) [0x01, 0x42, 0] [0, 0, 0] = true := by decide
/-- V15. -/
theorem test_cfgEnter_v15 :
    sends (exec .cfgEnter (hear (reply digitalReply) (ready params))) [0x01, 0x43, 0x00, 0x01, 0x00] digitalReply =
      true := by decide
/-- V16. -/
theorem test_cfgEnter_v16 :
    sends (exec .cfgEnter (hear (reply [0xFF, 0x40, 0x5A]) (ready params))) [0x01, 0x43, 0x00] [0xFF, 0x40, 0x5A] =
      true := by decide
/-- V18. -/
theorem test_cfgExit_v18 :
    sends (exec .cfgExit (hear (reply digitalReply) (ready params))) [0x01, 0x43, 0x00, 0x00, 0x5A] digitalReply =
      true := by decide
/-- V19. -/
theorem test_setModeCmd_v19 :
    sends (exec (.setModeCmd 0x01 0x03) (hear (reply configReply) (ready params)))
      [0x01, 0x44, 0x00, 0x01, 0x03, 0, 0, 0, 0] configReply = true := by decide
/-- V21. -/
theorem test_setModeCmd_v21 :
    sends (exec (.setModeCmd 0x01 0x03) (hear (reply [0xFF, 0x42, 0x5A, 0xFF, 0xFF, 0x11, 0x22]) (ready params)))
      [0x01, 0x44, 0x00, 0x01, 0x03, 0, 0] [0xFF, 0x42, 0x5A, 0xFF, 0xFF, 0x11, 0x22] = true := by decide
/-- P7. -/
theorem test_pressEn :
    sends (exec (.pressEn 11) (hear (reply configReply) (ready params))) [0x01, 0xEB, 0, 0, 0, 0, 0, 0, 0]
      configReply = true := by decide
/-- P7. -/
theorem test_pressCfg :
    sends (exec .pressCfg (hear (reply configReply) (ready params))) [0x01, 0xEF, 0, 0, 0, 0, 0, 0, 0]
      configReply = true := by decide

/-! ### DECODE and the layouts -/

/-- V36. -/
theorem test_modeDigital :
    next (exec .modeDigital (hold [0xFF, 0x41, 0x5A, 0xEF, 0xBF] (ready params))) (fun t =>
      t.out.pressed == 0x4010 && !t.out.axisFresh && !t.out.intValid) = true := by decide
/-- V38. -/
theorem test_modeAnalog :
    next (exec .modeAnalog (hold [0xFF, 0x73, 0x5A, 0xF7, 0xFB, 0x7F, 0x7F, 0x00, 0xFF] (ready params))) (fun t =>
      t.out.pressed == 0x0408 && t.out.axis == #v[0x7F, 0x7F, 0x00, 0xFF] && t.out.axisFresh && !t.out.intValid) =
      true := by decide
/-- V40. -/
theorem test_modePressure_v40 :
    next (exec .modePressure (hold [0xFF, 0x79, 0x5A, 0xF6, 0xFF, 0x10, 0x20, 0x30, 0x40, 0x01, 0, 0, 0, 0, 0, 0x80, 0,
      0, 0, 0, 0xFF] (ready params))) (fun t =>
        t.out.pressed == 0x4229 && t.out.axis == #v[0x10, 0x20, 0x30, 0x40] && t.out.axisFresh && t.out.intValid &&
          t.out.intensity == #v[0x01, 0, 0, 0, 0, 0, 0x80, 0, 0, 0, 0, 0xFF]) = true := by decide
/-- V33. -/
theorem test_modePressure_v33 :
    next (exec .modePressure (hold ([0xFF, 0x79, 0x5A, 0xFF, 0xFF, 0x7F, 0x7F, 0x7F, 0x7F] ++ List.replicate 12 0xFF)
      (ready params))) (fun t => t.out.pressed == 0xFFF0) = true := by decide
/-- V41. -/
theorem test_modeConfig_v41 :
    next (exec .modeConfig (hold [0xFF, 0xF3, 0x5A, 0xFE, 0xFF, 1, 2, 3, 4] (ready params))) (fun t =>
      t.out.pressed == 0x0001 && !t.out.axisFresh && t.flags.err == .noError) = true := by decide
/-- V42. -/
theorem test_modeConfig_v42 :
    next (exec .modeConfig (hold [0xFF, 0xF3, 0x5A, 0xFE, 0xFF, 1, 2, 3, 4]
      (ready { params with strictMode := true }))) (fun t => t.flags.err == .unrecognizedMode && t.out.pressed == 0) =
      true := by decide
/-- V44. -/
theorem test_modeOther_v44 :
    next (exec (.modeOther 0x53) (hold [0xFF, 0x53, 0x5A, 0xFD, 0xFF, 1, 2, 3, 4] (ready params))) (fun t =>
      t.out.pressed == 0x0002 && !t.out.axisFresh) = true := by decide
/-- V45. -/
theorem test_modeOther_v45 :
    next (exec (.modeOther 0x53) (hold [0xFF, 0x53, 0x5A, 0xFD, 0xFF, 1, 2, 3, 4]
      (ready { params with strictMode := true }))) (fun t => t.flags.err == .unrecognizedMode && t.out.pressed == 0) =
      true := by decide
/-- V39. -/
theorem test_decode_v39 :
    next (exec .decode (hold ([0xFF, 0x79, 0x5A, 0x00, 0x00, 0x7F, 0x7F, 0x7F, 0x7F] ++ List.replicate 12 0x00)
      (ready params))) (fun t => t.out.pressed == 0x000F && t.out.intValid) = true := by decide
/-- V37, the source's scenario E5. -/
theorem test_decode_v37 :
    next (exec .decode (hold [0x01, 0x73, 0x00, 0xFF, 0xFF, 0x80, 0x80, 0x40, 0xC0] (ready params))) (fun t =>
      t.out.pressed == 0x0000 && t.out.axis == #v[0x80, 0x80, 0x40, 0xC0]) = true := by decide

/-! ### Host operations, as steps of the machine -/

/-- P1, step 1. -/
theorem test_init_p1 :
    next (step (ask 0x00 (hear (reply (digitalReply ++ digitalReply)) (fresh params)))) (fun t =>
      t.trace.length == 509 && modeByte t == 0x41 && t.flags.initialised && !t.flags.busy && !t.cache.prevValid &&
        t.lines == Lines.configured) = true := by decide
/-- P1, step 4: the second poll of the run finds new buttons. -/
theorem test_poll_p1_changed :
    next (step (ask 0x01 (hear (reply [0xFF, 0x41, 0x5A, 0xEF, 0xBF])
      { ready params with cache := { prevMode := 0x41, prevSlice := #v[0xFF, 0xFF, 0, 0, 0, 0], prevValid := true } })))
      (fun t => t.out.pressed == 0x4010 && t.flags.changed && t.trace.length == 254 && !t.flags.busy &&
        t.cache.prevSlice == #v[0xEF, 0xBF, 0, 0, 0, 0]) = true := by decide
/-- P1, step 3: no change. -/
theorem test_poll_p1_same :
    next (step (ask 0x01 (hear (reply digitalReply)
      { ready params with cache := { prevMode := 0x41, prevSlice := #v[0xFF, 0xFF, 0, 0, 0, 0], prevValid := true } })))
      (fun t => !t.flags.changed && t.trace.length == 254) = true := by decide
/-- V62: ignored before INIT. -/
theorem test_poll_v62 :
    next (step (ask 0x01 (fresh params))) (fun t => t == fresh params) = true := by decide
/-- R183, R139. -/
theorem test_setMode_accepted :
    next (step (ask 0x16 (ready params))) (fun t =>
      t.flags.busy && t.seq.op == .setMode && t.seq.neg == .enteringConfig && t.seq.target == .analog && t.seq.lock &&
        t.trace.length == 0) = true := by decide
/-- R181. -/
theorem test_setMode_before_init :
    next (step (ask 0x16 (fresh params))) (fun t => t == fresh params) = true := by decide
/-- V60. -/
theorem test_hostReserved :
    next (step (ask 0x0E (ready params))) (fun t => t == ready params) = true := by decide
/-- P2b: one attempt, the cap 1, `ERR` = 1 after 1416 events. -/
theorem test_negotiate_p2b :
    next (exec .negotiate (latchTarget .analog true (accept .setMode
      (hear (reply (digitalReply ++ configReply ++ configReply ++ digitalReply)) (ready (capped 1)))))) (fun t =>
        t.trace.length == 1416 && t.flags.err == .negotiationTimeout && t.seq.neg == .idle && !t.flags.busy &&
          modeByte t == 0x41) = true := by decide
/-- P2, attempt 2 alone: confirmed after 1616 events. -/
theorem test_negotiate_p2 :
    next (exec .negotiate (latchTarget .analog true (accept .setMode
      (hear (reply (digitalReply ++ configReply ++ configReply ++ analogReply)) (ready params))))) (fun t =>
        t.trace.length == 1616 && t.flags.err == .noError && t.seq.neg == .idle && !t.flags.busy &&
          modeByte t == 0x73) = true := by decide

/-! ### Every obligation with hypotheses has a state and operands that meet them -/

theorem witness_EncodeThenDecode :
    params.Wf ∧ params.commandsDistinct = true ∧
      (Instr.setMode .pressure true).wf params = true ∧
      encode params (.setMode .pressure true) = some (.hostCommand, [0x1A]) ∧
      (Instr.hostReserved 0xFF).wf params = true ∧ encode params (.hostReserved 0xFF) = some (.hostCommand, [0xFF]) ∧
      (Instr.pressEn 11).wf params = true ∧ encode params (.pressEn 11) = some (.wireCommand, [0xEB]) ∧
      (Instr.modeOther 0x00).wf params = true ∧ encode params (.modeOther 0x00) = some (.modeByte, [0x00]) :=
  ⟨params_wf, by decide⟩

/-- Of `ExchangeTransfersByte`, `ExchangeEventsAndTime`, `FixedWireCommandsSent`. -/
theorem witness_linesReady : linesReady (ready params) = true := by decide

theorem witness_ExchangeDirectionsIndependent :
    linesReady (ready params) = true ∧ linesReady (hear [true] (ready params)) = true ∧
      linesReady (hear [false] (ready params)) = true ∧
      (hear [true] (ready params)).env.dataIn = (hear [true] (ready params)).env.dataIn ∧
      (hear [true] (ready params)).trace = (hear [false] (ready params)).trace := by decide

/-- Before INIT; with Clock Low, idle and before the first byte of a transaction. -/
theorem witness_LinesMustBeReady :
    let low := { ready params with lines := Lines.configured.drive .clk false }
    let due := setFr .hdr0 low
    linesReady (fresh params) = false ∧ linesReady low = false ∧ low.flags.busy = false ∧
      low.flags.initialised = true ∧ linesReady due = false ∧ exchangeDue due = true ∧ resetAt due 0 ≠ some 0 := by
  decide

theorem witness_SendMakesOneTransaction :
    linesReady (ready params) = true ∧ 1 ≤ [(0x42 : Byte)].length ∧ [(0x42 : Byte)].length ≤ params.cmdCap.val ∧
      1 ≤ (List.replicate 32 (0 : Byte)).length ∧
      (List.replicate 32 (0 : Byte)).length ≤ (ready params).params.cmdCap.val := by decide

theorem witness_FrameCarriesLatchedCommand :
    let a := latchCommand [0x42] (ready params)
    let b := latchCommand (List.replicate 32 0x42) (ready params)
    (linesReady a = true ∧ 1 ≤ a.framer.cmdLen ∧ a.framer.cmdLen ≤ a.framer.cmdBuf.length) ∧
      linesReady b = true ∧ 1 ≤ b.framer.cmdLen ∧ b.framer.cmdLen ≤ b.framer.cmdBuf.length := by decide

theorem witness_PressureCommandsSent : linesReady (ready params) = true ∧ (ready params).params.Wf :=
  ⟨by decide, params_wf⟩

/-- Of `TransactionEventCount`, `TransactionDuration`, `PhaseRowsMakeSend`. -/
theorem witness_legalSend :
    linesReady (ready params) = true ∧ legalCommand params cfgExitBytes = true ∧ (ready params).xchg.bx = .idle := by decide

theorem witness_TrailingPadsInvisible :
    linesReady (ready params) = true ∧ 1 ≤ [(0x42 : Byte)].length ∧
      [(0x42 : Byte)].length + 31 ≤ (ready params).params.cmdCap.val := by decide

theorem witness_TruncatedBytesNeverSent :
    let s := hear (reply [0xFF, 0x40, 0x5A]) (ready params)
    linesReady s = true ∧ legalCommand params cfgEnterBytes = true ∧ legalCommand params [0x43, 0x00] = true ∧
      cfgEnterBytes.take (replyLength s.env.dataIn - 1) = [0x43, 0x00].take (replyLength s.env.dataIn - 1) := by decide

theorem witness_BadCommandsRefused :
    linesReady (ready params) = true ∧ ([] : List Byte).length = 0 ∧
      (ready params).params.cmdCap.val < (List.replicate 33 (0 : Byte)).length := by decide

theorem witness_StuckLowPollIsShort :
    let s := hear (List.replicate 24 false) (ready params)
    linesReady s = true ∧ ∀ k, k < 24 → levelAt s.env.dataIn k = false := by decide

theorem witness_PhaseRowsMakeExchange : linesReady (ready params) = true ∧ (ready params).framer.fr = .idle := by decide

/-- Both sides of the image of `PRESS_MAP`: with the default map no slot has the indices 0 to 3; with the identity no
slot has 12 to 15. -/
theorem witness_PressureLayout :
    (ready params).params.Wf ∧ (∀ k : Fin 12, params.pressMap[k].val ≠ (0 : Fin 8).val) ∧
      (∀ k : Fin 12, params.pressMap[k].val ≠ (3 : Fin 8).val) ∧
      (ready { params with pressMap := #v[0, 1, 2, 3, 4, 5, 6, 7, 8, 9, 10, 11] }).params.Wf ∧
      ∀ k : Fin 12, (#v[0, 1, 2, 3, 4, 5, 6, 7, 8, 9, 10, 11] : Vector (Fin 16) 12)[k].val ≠ 8 + (4 : Fin 8).val :=
  ⟨params_wf, by decide, by decide, { params_wf with mapInjective := by decide }, by decide⟩

theorem witness_DecodeSelectsLayout :
    bufAt (hold [0, 0x79] (ready params)) 1 = 0x79 ∧ bufAt (hold [0, 0x73] (ready params)) 1 = 0x73 ∧
      bufAt (hold [0, 0x41] (ready params)) 1 = 0x41 ∧ bufAt (hold [0, 0xF3] (ready params)) 1 = 0xF3 ∧
      otherModeByte (bufAt (hold [0, 0x00] (ready params)) 1) = true ∧
      otherModeByte (bufAt (hold [0, 0xFF] (ready params)) 1) = true := by decide

theorem witness_UnlistedModesFallThrough :
    (ready params).params.strictMode = false ∧ otherModeByte 0x00 = true ∧ otherModeByte 0xFF = true ∧
      bufAt (hold [0, 0x78] (ready params)) 1 ≠ 0x79 ∧ bufAt (hold [0, 0x78] (ready params)) 1 ≠ 0x73 := by decide

theorem witness_StrictModeRaises :
    let s := hold [0, 0x72] (ready { params with strictMode := true })
    s.params.strictMode = true ∧ otherModeByte 0x78 = true ∧ bufAt s 1 ≠ 0x41 ∧ bufAt s 1 ≠ 0x73 ∧ bufAt s 1 ≠ 0x79 ∧
      (ready params).params.strictMode = false := by decide

/-- P = 0x0001 with the digital and the analog byte; with the pressure byte, whose slots carry nothing. -/
theorem witness_ButtonsRoundTrip :
    let f := fun m => hold ([0xFF, m, 0x5A, 0xFE, 0xFF, 0, 0, 0, 0] ++ List.replicate 12 0x00) (ready params)
    params.Wf ∧
      (∀ m ∈ [(0x41 : Byte), 0x73, 0x79], bufAt (f m) 1 = m ∧ bufAt (f m) 3 = (~~~(1 : BitVec 16)).extractLsb' 0 8 ∧
        bufAt (f m) 4 = (~~~(1 : BitVec 16)).extractLsb' 8 8) ∧
      (∀ k : Fin 12, params.pressMap[k] ≠ 0) ∧
      ∀ k : Fin 12, (bufAt (f 0x79) (9 + k) != 0x00) = (1 : BitVec 16).getLsbD params.pressMap[k] :=
  ⟨params_wf, by decide⟩

theorem witness_DecodeIsFunctionOfReply :
    let s := hold ([0, 0x79] ++ List.replicate 19 0) (ready { params with strictMode := true })
    let u := { s with out := { s.out with pressed := 0x1234 } }
    s.params = u.params ∧ bufAt s 1 = bufAt u 1 ∧ (∀ i, 3 ≤ i → i ≤ 20 → bufAt s i = bufAt u i) ∧
      bufAt s 1 = 0x79 ∧ (ready params).params.strictMode = false ∧
      ∃ t, exec .decode s = .next t ∧ t.out.intValid = true ∧ t.out.axisFresh = true :=
  ⟨by decide, by decide, fun _ _ _ => rfl, by decide, by decide, _, rfl, by decide⟩

theorem witness_InitConfiguresAndPolls :
    (fresh params).flags.busy = false ∧ 1 ≤ (fresh params).params.initSyncCount := by decide

/-- The hypotheses, and for each of the three outcomes a state whose transaction ends in it. -/
theorem witness_PollRunsToItsEnd :
    let strict := hear (reply configReply) (ready { params with strictMode := true })
    let cached := { hear (reply digitalReply) (ready params) with
      cache := { prevMode := 0x41, prevSlice := #v[0xFF, 0xFF, 0, 0, 0, 0], prevValid := true } }
    let first := hear (reply digitalReply) (ready params)
    (∀ s ∈ [strict, cached, first], s.flags.busy = false ∧ s.flags.initialised = true ∧ linesReady s = true) ∧
      bufAt (send [0x42] (accept .poll strict)) 1 = 0xF3 ∧ strict.params.strictMode = true ∧
      cached.params.changeDetect = true ∧ SameReply cached.cache (send [0x42] (accept .poll cached)) ∧
      ¬SameReply first.cache (send [0x42] (accept .poll first)) := by
  simp only [SameReply]
  decide

theorem witness_PollIsIdempotent :
    let s := hear (reply (digitalReply ++ digitalReply)) (ready params)
    s.flags.busy = false ∧ linesReady s = true ∧ s.params.changeDetect = true ∧
      ∀ k, k < 8 * replyLength s.env.dataIn →
        levelAt s.env.dataIn (8 * replyLength s.env.dataIn + k) = levelAt s.env.dataIn k := by decide

/-- P3: the same first six payload bytes. -/
theorem witness_PressureBlindSpot :
    let s := { hear (reply ([0xFF, 0x79, 0x5A, 0xFF, 0xFF, 0x7F, 0x7F, 0x7F, 0x7F] ++ List.replicate 12 0x80)) (ready params) with
      cache := { prevMode := 0x79, prevSlice := #v[0xFF, 0xFF, 0x7F, 0x7F, 0x7F, 0x7F], prevValid := true } }
    s.flags.busy = false ∧ linesReady s = true ∧ s.params.changeDetect = true ∧ s.cache.prevValid = true ∧
      s.cache.prevMode = 0x79 ∧ replyByte s.env.dataIn 1 = 0x79 ∧
      ∀ j : Fin 6, s.cache.prevSlice[j] = replyByte s.env.dataIn (3 + j) := by decide

theorem witness_NoControllerPoll :
    (ready params).flags.busy = false ∧ linesReady (ready params) = true ∧ (ready params).env.dataIn = [] ∧
      (ready params).params.strictMode = false := by decide

theorem witness_SetModeAccepted : (ready params).flags.busy = false ∧ (ready params).flags.initialised = true := by
  decide

theorem witness_IgnoredRequestsDoNothing :
    (working params).flags.busy = true ∧ (fresh params).flags.initialised = false := by decide

theorem witness_IgnoredRequestSteps :
    Sound (ask 0x0E (ready params)) ∧ (ask 0x0E (ready params)).flags.busy = false ∧
      resetAt (ask 0x0E (ready params)) 0 = none ∧ (ask 0x0E (ready params)).env.hostIn = some 0x0E :: [] ∧
      reservedHostWord 0x0E = true ∧ Sound (ask 0x01 (fresh params)) ∧
      (ask 0x01 (fresh params)).flags.initialised = false ∧ (0x01 : Byte).extractLsb' 0 2 ≠ 0 := by
  refine ⟨(ready_sound _ params_wf).withEnv _ _, by decide, by decide, by decide, by decide, ?_, by decide, by decide⟩
  have h := params_wf
  constructor <;> first | exact h | simp [ask, fresh, State.resetWith, Memory.wf, Params.one_le_cmdCap]

theorem witness_BusyEngineIgnoresRequest :
    (ask 0x01 (working params)).flags.busy = true ∧ (ask 0x01 (working params)).env.hostIn = some 0x01 :: [] := by
  decide

/-- The three ends of an attempt: confirmed, timed out, to be repeated. -/
theorem witness_NegotiateRunsOneAttempt :
    let run := fun p last => exec .negotiate (hear (reply (digitalReply ++ configReply ++ configReply ++ last)) (ready p))
    linesReady (ready params) = true ∧ (ready params).params.Wf ∧ (ready (capped 1)).params.Wf ∧
      next (run params digitalReply) (fun t => bufAt t 1 == modeByteOf .digital) = true ∧
      next (run (capped 1) analogReply) (fun t => bufAt t 1 != modeByteOf .digital) = true ∧
      (capped 1).retryCap = some 1 ∧
      next (run (capped 2) analogReply) (fun t => bufAt t 1 != modeByteOf .digital) = true ∧
      (capped 2).retryCap ≠ some 1 :=
  ⟨by decide, params_wf, capped_wf 1 (by decide), by decide, by decide, by decide, by decide, by decide⟩

theorem witness_AttemptTransactionCount :
    linesReady (ready params) = true ∧ (ready params).params.Wf ∧ (ready params).seq.target ≠ .pressure ∧
      linesReady (latchTarget .pressure true (ready params)) = true ∧
      (latchTarget .pressure true (ready params)).seq.target = .pressure :=
  ⟨by decide, params_wf, by decide, by decide, by decide⟩

/-- Of `SetModeStepsAreHandshake` and `UnansweredSetModeNeverEnds`. -/
theorem witness_soundReady :
    Sound (ready params) ∧ (ready params).flags.busy = false ∧ (ready params).flags.initialised = true ∧
      (∀ k, resetAt (ready params) k = none) ∧ (ready params).params.retryCap = none ∧ (ready params).env.dataIn = [] :=
  ⟨ready_sound _ params_wf, rfl, rfl, fun _ => rfl, rfl, rfl⟩

theorem witness_RetryCapEndsSetMode :
    Sound (ready (capped 1)) ∧ (ready (capped 1)).flags.busy = false ∧ (ready (capped 1)).flags.initialised = true ∧
      (ready (capped 1)).params.retryCap = some 1 ∧ ∀ j, resetAt (ready (capped 1)) j = none :=
  ⟨ready_sound _ (capped_wf 1 (by decide)), rfl, rfl, rfl, fun _ => rfl⟩

/-- A sound state at every row of the transition table. -/
theorem witness_HandshakeTransitions :
    Sound (working params) ∧ Sound (at_ params .analog .settingMode .mode 0 0) ∧
      Sound (at_ params .pressure .settingMode .mode 0 0) ∧ Sound (at_ params .pressure .settingMode .en 11 0) ∧
      Sound (at_ params .pressure .settingMode .cfg 10 0) ∧ Sound (at_ params .pressure .settingMode .cfg 11 0) ∧
      Sound (at_ params .pressure .exitingConfig .cfg 11 0) ∧ Sound (at_ params .digital .resyncing .mode 0 2) ∧
      (working params).seq.op = .setMode ∧ resetAt (working params) 0 = none :=
  ⟨working_sound _ params_wf, at_sound _ params_wf .analog .settingMode .mode 0 0 (by decide) (by decide) (by decide) (by decide),
    at_sound _ params_wf .pressure .settingMode .mode 0 0 (by decide) (by decide) (by decide) (by decide),
    at_sound _ params_wf .pressure .settingMode .en 11 0 (by decide) (by decide) (by decide) (by decide),
    at_sound _ params_wf .pressure .settingMode .cfg 10 0 (by decide) (by decide) (by decide) (by decide),
    at_sound _ params_wf .pressure .settingMode .cfg 11 0 (by decide) (by decide) (by decide) (by decide),
    at_sound _ params_wf .pressure .exitingConfig .cfg 11 0 (by decide) (by decide) (by decide) (by decide),
    at_sound _ params_wf .digital .resyncing .mode 0 2 (by decide) (by decide) (by decide) (by decide),
    by decide, by decide⟩

/-- The last poll of an attempt: confirmed; not confirmed without a cap, below the cap, at the cap. -/
theorem witness_HandshakeTransitions_ends :
    let last := fun p levels => hear levels (at_ p .digital .resyncing .mode 0 1)
    Sound (last params (reply digitalReply)) ∧ Sound (last params []) ∧ Sound (last (capped 2) []) ∧
      Sound (last (capped 1) []) ∧ next (step (last params (reply digitalReply))) (fun t => bufAt t 1 == 0x41) = true ∧
      next (step (last params [])) (fun t => bufAt t 1 != 0x41) = true ∧ params.retryCap = none ∧
      next (step (last (capped 2) [])) (fun t => bufAt t 1 != 0x41) = true ∧
      (last (capped 2) []).seq.attempt < 2 ∧ next (step (last (capped 1) [])) (fun t => bufAt t 1 != 0x41) = true ∧
      1 ≤ (last (capped 1) []).seq.attempt := by
  have h : ∀ (p : Params) (levels : List Level), p.Wf →
      Sound (hear levels (at_ p .digital .resyncing .mode 0 1)) := fun p levels hp =>
    (at_sound p hp .digital .resyncing .mode 0 1 (by decide) (by decide) (fun _ => le_refl 1)
      (le_max_of_le_left hp.resyncPositive)).withEnv _ _
  exact ⟨h _ _ params_wf, h _ _ params_wf, h _ _ (capped_wf 2 (by decide)), h _ _ (capped_wf 1 (by decide)), by decide,
    by decide, by decide, by decide, by decide, by decide, by decide⟩

/-- Of `StepKeepsSound`, `SoundStatesAreSafe`, `ParametersNeverChange`, `TraceOnlyGrows`, `InitialisedUntilReset`. -/
theorem witness_soundStep :
    Sound (working params) ∧ (∃ t, step (working params) = .next t) ∧ resetAt (working params) 0 = none ∧
      (working params).flags.initialised = true :=
  ⟨working_sound _ params_wf, ⟨_, rfl⟩, by decide⟩

theorem witness_StepRunsDecodedInstruction :
    let s := ask 0x01 (ready params)
    s.framer.fr = .idle ∧ s.xchg.bx = .idle ∧ resetAt s 0 = none ∧ s.flags.busy = false ∧
      s.env.hostIn = some 0x01 :: [] ∧ (working params).framer.fr = .idle ∧ (working params).xchg.bx = .idle ∧
      resetAt (working params) 0 = none ∧ (working params).flags.busy = true ∧
      fetch (working params) = some .cfgEnter ∧ ∃ t, exec .cfgEnter (takeInputs (working params)) = .next t :=
  ⟨rfl, rfl, rfl, rfl, rfl, rfl, rfl, rfl, rfl, rfl, _, rfl⟩

/-- A step of a SET_MODE, and an INIT presented to an idle engine. -/
theorem witness_OutputsWrittenOnlyByPoll :
    Sound (working params) ∧ (∃ t, step (working params) = .next t) ∧ fetch (working params) ≠ some .poll ∧
      (working params).seq.op ≠ .poll ∧ fetch (working params) ≠ some .init ∧ Sound (ask 0x00 (ready params)) ∧
      (∃ t, step (ask 0x00 (ready params)) = .next t) ∧ fetch (ask 0x00 (ready params)) = some .init ∧
      (ask 0x00 (ready params)).seq.op ≠ .poll :=
  ⟨working_sound _ params_wf, ⟨_, rfl⟩, by decide, by decide, by decide, (ready_sound _ params_wf).withEnv _ _,
    ⟨_, rfl⟩, by decide, by decide⟩

theorem witness_ReferenceBehaviourHasNoErrors :
    (working params).params.retryCap = none ∧ (working params).params.strictMode = false ∧
      (working params).flags.err = .noError ∧ (∃ t, step (working params) = .next t) ∧
      (∃ t, exec (.exchange 0x42) (ready params) = .next t) ∧ ∃ t, exec (.send [0x42]) (ready params) = .next t :=
  ⟨rfl, rfl, rfl, ⟨_, rfl⟩, ⟨_, rfl⟩, _, rfl⟩

/-- A step of an idle engine has no pin event. -/
theorem witness_BufferWrittenOnlyOnTheWire :
    resetAt (ready params) 0 = none ∧ ∃ t, step (ready params) = .next t ∧ t.trace = (ready params).trace :=
  ⟨rfl, _, rfl, rfl⟩

/-- The reset input before the first event, after 100 of the 1654 events of a command that nothing answers, and after
more events than there are. -/
theorem witness_ResetCutsAtAnyEvent :
    let cut := fun n => { working params with env := { dataIn := [], hostIn := [], resetIn := [some n] } }
    ∀ n ∈ [0, 100, 2000], resetAt (cut n) 0 = some n ∧
      next (cycle (cut n)) (fun u => (cut n).trace.length + 1654 == u.trace.length) = true := by decide

/-- Asserted for two steps, and the second of two separate resets. -/
theorem witness_HeldResetKeepsResetState :
    let s := { working params with env := { dataIn := [], hostIn := [], resetIn := [some 0, some 0, none, some 0] } }
    1 ≤ 2 ∧ (∀ k, k < 2 → resetAt s k = some 0) ∧
      next (runSteps 3 s) (fun t => resetAt t 0 == some 0) = true := by decide

theorem witness_UnansweredSetModeStays : Unanswered (working params) ∧ ∃ t, step (working params) = .next t :=
  ⟨⟨working_sound _ params_wf, rfl, rfl, rfl, fun _ => rfl⟩, _, rfl⟩

theorem witness_HostSeesNothingWhileBusy :
    (working params).flags.busy = true ∧ (ready params).flags.busy = false := by decide

end Sys2Proof.Tests
end

section
/-!
PROOFS. The wire commands as transactions (R82 to R87), the host decode by its fields (R75, R76) and the length
formula (R73, R95).
-/

namespace Sys2Proof.Machine

/-! ### The meaning of the six wire commands: a SEND of their bytes (R81) -/

section
variable (s : State)

@[simp] theorem exec_pollCmd : exec .pollCmd s = trySend (pollBytes s.params) s := rfl
@[simp] theorem exec_cfgEnter : exec .cfgEnter s = trySend cfgEnterBytes s := rfl
@[simp] theorem exec_cfgExit : exec .cfgExit s = trySend cfgExitBytes s := rfl
@[simp] theorem exec_setModeCmd (a l : Byte) : exec (.setModeCmd a l) s = trySend (setModeBytes a l) s := rfl
@[simp] theorem exec_pressEn (k : Fin 12) : exec (.pressEn k) s = trySend (pressEnBytes s.params k) s := rfl
@[simp] theorem exec_pressCfg : exec .pressCfg s = trySend (pressCfgBytes s.params) s := rfl

end

/-- A legal command with the lines ready is one transaction that carries its bytes (R106, R111 to R122). -/
theorem trySend_done {s : State} {cmd : List Byte} (hready : linesReady s = true)
    (hlegal : legalCommand s.params cmd = true) : ∃ t, trySend cmd s = .next t ∧ TransactionDone cmd s t :=
  ⟨send cmd s, trySend_of_ready hready hlegal, send_done cmd s hlegal⟩

/-- Settles O11: the bytes of each command are legal whatever the parameters are: the fixed lists fit a
`CMD_CAP` of at least 8, and `POLL_CMD` fits by its type (R7, R25). -/
theorem fixedWireCommandsSent : Obligations.FixedWireCommandsSent := by
  refine ⟨rfl, fun s hready => ⟨?_, ?_, ?_, fun a l => ?_⟩⟩
  · rw [exec_pollCmd]
    exact trySend_done hready (pollBytes_legal s.params)
  · rw [exec_cfgEnter]
    exact trySend_done hready (cfgEnterBytes_legal s.params)
  · rw [exec_cfgExit]
    exact trySend_done hready (cfgExitBytes_legal s.params)
  · rw [exec_setModeCmd]
    exact trySend_done hready (setModeBytes_legal s.params a l)

/-- Settles O12: R7's constraints on the parameters make the pressure commands legal. -/
theorem pressureCommandsSent : Obligations.PressureCommandsSent := by
  refine fun s hready hwf => ⟨fun k => ?_, ?_⟩
  · rw [exec_pressEn]
    exact trySend_done hready (hwf.pressEnLegal k)
  · rw [exec_pressCfg]
    exact trySend_done hready hwf.pressCfgLegal

/-! ### The host command word -/

@[simp] theorem targetOfCode_zero : targetOfCode 0#2 = some .digital := rfl
@[simp] theorem targetOfCode_one : targetOfCode 1#2 = some .analog := rfl
@[simp] theorem targetOfCode_two : targetOfCode 2#2 = some .pressure := rfl
@[simp] theorem targetOfCode_three : targetOfCode 3#2 = none := rfl

/-- The codes of a two-bit field (R74). -/
theorem fieldCode_cases (c : BitVec 2) : c = 0#2 ∨ c = 1#2 ∨ c = 2#2 ∨ c = 3#2 := by
  revert c
  decide

/-- Settles O2: only `OPC` = 2 reads the `TARGET` field, and each of its four codes is a row. -/
theorem hostDecodeByFields : Obligations.HostDecodeByFields := by
  intro w
  unfold decodeHost
  by_cases hopc : w.extractLsb' 0 2 = 2#2
  · obtain htgt | htgt | htgt | htgt := fieldCode_cases (w.extractLsb' 2 2) <;> simp [hopc, htgt]
  · simp [hopc]

/-! ### The length formula -/

/-- The mask 0x0F takes bits 3:0 of a byte. -/
theorem toNat_and_0x0F (m : Byte) : (m &&& 0x0F).toNat = (m.extractLsb' 0 4).toNat := by
  simpa using Nat.and_two_pow_sub_one_eq_mod m.toNat 4

/-- Settles O4: the mask is the low nibble; the parity and the bounds are laws of `responseLength`. -/
theorem lengthFormula : Obligations.LengthFormula := by
  refine fun m => ⟨?_, responseLength_odd m, responseLength_ge m, responseLength_le m⟩
  rw [responseLength, toNat_and_0x0F, Nat.mul_comm]

end Sys2Proof.Machine
end

section
/-!
PROOFS. The Bit Exchange Engine: one byte each way (R71, R101, R103).
-/

namespace Sys2Proof.Machine

@[simp] theorem exec_exchange (b : Byte) (s : State) : exec (.exchange b) s = execExchange b s := rfl

/-- With the lines configured and Clock High, EXCHANGE answers the state of `exchange` (R106). -/
theorem execExchange_of_ready {s : State} (b : Byte) (hready : linesReady s = true) :
    execExchange b s = .next (exchange b s) := if_pos hready

/-- Settles O5: the effect and the frame are both read off `exchange_eq`, which gives the whole state after the
eight bit cells and the release of Command. -/
theorem exchangeTransfersByte : Obligations.ExchangeTransfersByte := by
  intro s b hready
  refine ⟨exchange b s, by rw [exec_exchange, execExchange_of_ready b hready], ?_⟩
  rw [exchange_eq]
  exact ⟨rfl, rfl, rfl, rfl, rfl⟩

end Sys2Proof.Machine
end

section
/-!
PROOFS. The Command Framer: SEND as one transaction (R111 to R121).
-/

namespace Sys2Proof.Machine

@[simp] theorem exec_send (cmd : List Byte) (s : State) : exec (.send cmd) s = trySend cmd s := rfl

/-- The lists SEND accepts have 1 to `CMD_CAP` bytes (R121). -/
theorem legalCommand_iff {p : Params} {cmd : List Byte} :
    legalCommand p cmd = true ↔ 1 ≤ cmd.length ∧ cmd.length ≤ p.cmdCap.val := by
  simp [legalCommand]

/-- Settles O9: a list of 1 to `CMD_CAP` bytes is legal, and a legal command with the lines ready is one
transaction (`trySend_done`). -/
theorem sendMakesOneTransaction : Obligations.SendMakesOneTransaction := by
  intro s cmd hready hnonempty hfits
  have hlegal : legalCommand s.params cmd = true := legalCommand_iff.mpr ⟨hnonempty, hfits⟩
  rw [exec_send]
  exact trySend_done hready hlegal

end Sys2Proof.Machine
end

section
/-!
PROOFS. The Decoder: the three layouts (R150 to R156), the fall-through (R157, R158) and the strict raise (R160).
-/

namespace Sys2Proof.Machine

/-! ### The meaning of DECODE and of the five mode bytes -/

section
variable (s : State)

@[simp] theorem exec_decode : exec .decode s = .next (decodeReply s) := rfl
@[simp] theorem exec_modeDigital : exec .modeDigital s = .next (layoutDigital s) := rfl
@[simp] theorem exec_modeAnalog : exec .modeAnalog s = .next (layoutAnalog s) := rfl
@[simp] theorem exec_modePressure : exec .modePressure s = .next (layoutPressure s) := rfl
@[simp] theorem exec_modeConfig : exec .modeConfig s = .next (layoutOther 0xF3 s) := rfl
@[simp] theorem exec_modeOther (b : Byte) : exec (.modeOther b) s = .next (layoutOther b s) := rfl

end

/-! ### The bytes of the reply, by index -/

/-- The button field by its bytes, `BUF[3]` the low one (R55). -/
theorem buttonField_getLsbD (s : State) (i : Nat) :
    (buttonField s).getLsbD i = if i < 8 then (bufAt s 3).getLsbD i else (bufAt s 4).getLsbD (i - 8) :=
  BitVec.getLsbD_append

/-- A pressed flag is the complement of its field bit (R149). -/
theorem pressedOfField_getLsbD (field : BitVec 16) {i : Nat} (hi : i < 16) :
    (pressedOfField field).getLsbD i = !field.getLsbD i := by
  simp [pressedOfField, hi]

theorem pressedOfField_low (s : State) (i : Fin 8) :
    (pressedOfField (buttonField s)).getLsbD i = !(bufAt s 3).getLsbD i := by
  rw [pressedOfField_getLsbD _ (by omega), buttonField_getLsbD, if_pos i.isLt]

theorem pressedOfField_high (s : State) (i : Fin 8) :
    (pressedOfField (buttonField s)).getLsbD (8 + i) = !(bufAt s 4).getLsbD i := by
  rw [pressedOfField_getLsbD _ (by omega), buttonField_getLsbD, if_neg (by omega), Nat.add_sub_cancel_left]

theorem axisBytes_getElem (s : State) (j : Fin 4) : (axisBytes s)[j] = bufAt s (5 + j) := by
  fin_cases j <;> rfl

theorem intensityBytes_getElem (s : State) (k : Fin 12) : (intensityBytes s)[k] = bufAt s (9 + k) := by
  fin_cases k <;> rfl

/-! ### Bits set one by one -/

theorem setBit_getLsbD {w : Nat} (v : BitVec w) (n i : Nat) (l : Bool) (hi : i < w) :
    (setBit v n l).getLsbD i = if n = i then l else v.getLsbD i := by
  unfold setBit
  obtain hlt | rfl | hgt := Nat.lt_trichotomy i n
  · simp [hlt, hlt.ne', hi]
  · simp [hi]
  · have hne : i - n ≠ 0 := by omega
    simp [hgt.ne, hi, hne]

section
variable {α : Type} {w : Nat} (f : α → Fin w) (g : α → Bool)

/-- A run of writes at the indices `f k` keeps every bit at another index. -/
theorem foldl_setBit_getLsbD_of_ne (ks : List α) (v : BitVec w) {i : Nat} (hi : i < w)
    (h : ∀ k ∈ ks, (f k).val ≠ i) :
    (ks.foldl (fun v k => setBit v (f k).val (g k)) v).getLsbD i = v.getLsbD i := by
  induction ks generalizing v with
  | nil => rfl
  | cons k ks ih =>
    obtain ⟨hk, hks⟩ := List.forall_mem_cons.mp h
    rw [List.foldl_cons, ih _ hks, setBit_getLsbD _ _ _ _ hi, if_neg hk]

/-- Where the indices differ, the bit at `f k` is what the write for `k` put there: no other write reaches it. -/
theorem foldl_setBit_getLsbD_of_mem (hf : Function.Injective f) (ks : List α) (v : BitVec w) {k : α}
    (hk : k ∈ ks) : (ks.foldl (fun v k => setBit v (f k).val (g k)) v).getLsbD (f k) = g k := by
  induction ks generalizing v with
  | nil => simp at hk
  | cons a ks ih =>
    rw [List.foldl_cons]
    by_cases hmem : k ∈ ks
    · exact ih _ hmem
    · obtain rfl : k = a := (List.mem_cons.mp hk).resolve_right hmem
      have hother : ∀ b ∈ ks, (f b).val ≠ (f k).val := fun b hb heq => hmem (hf (Fin.ext heq) ▸ hb)
      rw [foldl_setBit_getLsbD_of_ne f g ks _ (f k).isLt hother, setBit_getLsbD _ _ _ _ (f k).isLt, if_pos rfl]

end

/-! ### The pressed flags of the pressure layout -/

theorem mem_slotOrder (k : Fin 12) : k ∈ slotOrder := by
  revert k
  decide

/-- On `PRESS_MAP(k)` stands the pressed flag of slot k (R155). -/
theorem pressedOfPressure_slot {p : Params} (hp : p.Wf) (field : BitVec 16) (intensity : Vector Byte 12)
    (k : Fin 12) :
    (pressedOfPressure p field intensity).getLsbD p.pressMap[k] = slotPressed intensity[k] :=
  foldl_setBit_getLsbD_of_mem (fun k => p.pressMap[k]) (fun k => slotPressed intensity[k]) hp.mapInjective
    slotOrder _ (mem_slotOrder k)

/-- Outside the image of `PRESS_MAP` the field gives the pressed flag (R153). -/
theorem pressedOfPressure_outside (p : Params) (field : BitVec 16) (intensity : Vector Byte 12) {i : Nat}
    (hi : i < 16) (h : ∀ k : Fin 12, p.pressMap[k].val ≠ i) :
    (pressedOfPressure p field intensity).getLsbD i = (pressedOfField field).getLsbD i :=
  foldl_setBit_getLsbD_of_ne (fun k => p.pressMap[k]) (fun k => slotPressed intensity[k]) slotOrder _ hi
    fun k _ => h k

/-! ### The layouts -/

/-- Settles O23: a slot's flag is the one its own write set, since `PRESS_MAP` is injective; a button no slot
reaches keeps the complement of its field bit. -/
theorem pressureLayout : Obligations.PressureLayout := by
  intro s hwf
  refine ⟨layoutPressure s, exec_modePressure s, fun k => ?slot, fun i hout => ?low, fun i hout => ?high,
    intensityBytes_getElem s, axisBytes_getElem s, rfl, rfl, rfl⟩
  case slot =>
    rw [layoutPressure_out, pressedOfPressure_slot hwf, intensityBytes_getElem, slotPressed]
  case low =>
    rw [layoutPressure_out, pressedOfPressure_outside _ _ _ (by omega) hout, pressedOfField_low]
  case high =>
    rw [layoutPressure_out, pressedOfPressure_outside _ _ _ (by omega) hout, pressedOfField_high]

/-- Settles O21: the flags are the complement of the field by its two bytes; the rest is `layoutDigital`'s record
update. -/
theorem digitalLayout : Obligations.DigitalLayout := fun s =>
  ⟨layoutDigital s, exec_modeDigital s, pressedOfField_low s, pressedOfField_high s, rfl, rfl, rfl, rfl, rfl⟩

/-- Settles O22: as the digital layout, with `AXIS` read off `BUF[5 .. 8]`. -/
theorem analogLayout : Obligations.AnalogLayout := fun s =>
  ⟨layoutAnalog s, exec_modeAnalog s, pressedOfField_low s, pressedOfField_high s, rfl, rfl, axisBytes_getElem s,
    rfl, rfl⟩

/-! ### Mode bytes without a layout -/

theorem unrecognised_iff {m : Byte} : unrecognised m = true ↔ m ≠ 0x41 ∧ m ≠ 0x73 ∧ m ≠ 0x79 := by
  simp [unrecognised, and_assoc]

/-- A byte MODE_OTHER carries is outside the three layouts (R88, R157). -/
theorem unrecognised_of_otherModeByte {b : Byte} (hb : otherModeByte b = true) : unrecognised b = true := by
  unfold otherModeByte at hb
  exact (Bool.and_eq_true_iff.mp hb).1

/-- Without strict mode every byte falls through to the digital layout (R157). -/
theorem layoutOther_of_reference {s : State} (m : Byte) (h : s.params.strictMode = false) :
    layoutOther m s = layoutDigital s := by
  simp [layoutOther, h]

/-- In strict mode a byte outside the layouts raises (R160). -/
theorem layoutOther_of_strict {s : State} {m : Byte} (h : s.params.strictMode = true)
    (hm : unrecognised m = true) : layoutOther m s = raiseError .unrecognizedMode s := by
  simp [layoutOther, h, hm]

/-- Without strict mode DECODE is one of the three layouts. -/
theorem decodeReply_cases_of_reference {s : State} (h : s.params.strictMode = false) :
    (modeByte s = 0x79 ∧ decodeReply s = layoutPressure s) ∨
      (modeByte s = 0x73 ∧ decodeReply s = layoutAnalog s) ∨
      (modeByte s ≠ 0x79 ∧ modeByte s ≠ 0x73 ∧ decodeReply s = layoutDigital s) := by
  obtain hpress | hana | ⟨h79, h73, -, hdig⟩ | ⟨-, -, hstrict, -⟩ := decodeReply_cases s
  · exact .inl hpress
  · exact .inr (.inl hana)
  · exact .inr (.inr ⟨h79, h73, hdig⟩)
  · simp [h] at hstrict

/-- In strict mode DECODE raises on a mode byte outside the layouts (R160). -/
theorem decodeReply_of_strict {s : State} (h : s.params.strictMode = true)
    (hm : unrecognised (modeByte s) = true) : decodeReply s = raiseError .unrecognizedMode s := by
  obtain ⟨-, h73, h79⟩ := unrecognised_iff.mp hm
  obtain ⟨hpress, -⟩ | ⟨hana, -⟩ | ⟨-, -, href, -⟩ | ⟨-, -, -, hraise⟩ := decodeReply_cases s
  · exact absurd hpress h79
  · exact absurd hana h73
  · simp [h, hm] at href
  · exact hraise

/-- Settles O25: MODE_CONFIG and MODE_OTHER are the fall-through, and DECODE's other two layouts are excluded by the
mode byte. -/
theorem unlistedModesFallThrough : Obligations.UnlistedModesFallThrough := by
  intro s b href _
  refine ⟨layoutDigital s, exec_modeDigital s, ?_, ?_, fun h79 h73 => ?_⟩
  · rw [exec_modeConfig, layoutOther_of_reference _ href]
  · rw [exec_modeOther, layoutOther_of_reference _ href]
  · obtain ⟨hpress, -⟩ | ⟨hana, -⟩ | ⟨-, -, hdig⟩ := decodeReply_cases_of_reference href
    · exact absurd hpress h79
    · exact absurd hana h73
    · rw [exec_decode, hdig]

/-- Settles O26: in strict mode all three instructions are `raiseError .unrecognizedMode`, whose record update is the
effect R188 states; without it DECODE is a layout, and a layout writes neither flags nor sequencer. -/
theorem strictModeRaises : Obligations.StrictModeRaises := by
  refine fun s b hb => ⟨fun hstrict => ?strict, fun href => ?reference⟩
  case strict =>
    refine ⟨raiseError .unrecognizedMode s, ?_, ?_, fun h41 h73 h79 => ?_, rfl, rfl, rfl, rfl, rfl, rfl, rfl⟩
    · rw [exec_modeConfig, layoutOther_of_strict hstrict (by decide)]
    · rw [exec_modeOther, layoutOther_of_strict hstrict (unrecognised_of_otherModeByte hb)]
    · rw [exec_decode, decodeReply_of_strict hstrict (unrecognised_iff.mpr ⟨h41, h73, h79⟩)]
  case reference =>
    refine ⟨decodeReply s, exec_decode s, ?_⟩
    obtain ⟨-, hd⟩ | ⟨-, hd⟩ | ⟨-, -, hd⟩ := decodeReply_cases_of_reference href <;> rw [hd] <;> exact ⟨rfl, rfl⟩

end Sys2Proof.Machine
end

section
/-!
PROOFS. Transactions one after another: what they leave in `BUF`, on the wires and in the Framer (R120, R122), and the
bursts of polls as such a run (R128, R165).
-/

namespace Sys2Proof.Machine

/-! ### Runs of transactions -/

/-- `t` is `s` after one transaction for each command of the list; the sequencer may move between them. -/
inductive Transactions : List (List Byte) → State → State → Prop
  | nil (s : State) (q : SequencerRegs) : Transactions [] s { s with seq := q }
  | cons {cmd : List Byte} {cmds : List (List Byte)} {s u t : State} (q : SequencerRegs)
      (first : TransactionDone cmd { s with seq := q } u) (rest : Transactions cmds u t) :
      Transactions (cmd :: cmds) s t

/-- One more transaction before `n` others: what the others do not reach is what it left. -/
theorem repliesLeft_cons {n : Nat} {levels : List Level} {before mid after : Memory}
    (hread : ∀ i, i < replyLength levels → Memory.read mid i = some (replyByte levels i))
    (hkeep : ∀ i, replyLength levels ≤ i → Memory.read mid i = Memory.read before i)
    (h : RepliesLeft n (levels.drop (8 * replyLength levels)) mid after) :
    RepliesLeft (n + 1) levels before after := by
  intro i
  obtain ⟨hlast, hnone⟩ := h i
  have hshift : ∀ k, levelsAfter k (levels.drop (8 * replyLength levels)) = levelsAfter (k + 1) levels := fun _ => rfl
  simp only [hshift] at hlast hnone
  refine ⟨fun k hk hi hlater => ?_, fun hall => ?_⟩
  · cases k with
    | zero => rw [hnone fun j hj => hlater (j + 1) (by omega) (by omega)]; exact hread i hi
    | succ k => exact hlast k (by omega) hi fun j hkj hjn => hlater (j + 1) (by omega) (by omega)
  · rw [hnone fun j hj => hall (j + 1) (by omega), hkeep i (hall 0 (by omega))]

section
variable {cmds : List (List Byte)} {s t : State}

theorem Transactions.unchanged (h : Transactions cmds s t) :
    t.out = s.out ∧ t.cache = s.cache ∧ t.flags = s.flags ∧ t.params = s.params ∧ t.powerOns = s.powerOns := by
  induction h with
  | nil => exact ⟨rfl, rfl, rfl, rfl, rfl⟩
  | cons q first rest ih =>
    obtain ⟨-, hout, hcache, hflags, hparams, hpower⟩ := first.unchanged
    simpa only [hout, hcache, hflags, hparams, hpower] using ih

theorem Transactions.env (h : Transactions cmds s t) :
    t.env = { s.env with dataIn := levelsAfter cmds.length s.env.dataIn } := by
  induction h with
  | nil => rfl
  | cons q first rest ih => rw [ih, first.env]; rfl

theorem Transactions.trace (h : Transactions cmds s t) :
    t.trace = (commandEvents cmds s.env.dataIn).reverse ++ s.trace := by
  induction h with
  | nil => rfl
  | cons q first rest ih => simp [ih, first.env, first.events, commandEvents]

theorem Transactions.replies (h : Transactions cmds s t) :
    RepliesLeft cmds.length s.env.dataIn s.buf t.buf := by
  induction h with
  | nil => exact fun i => ⟨fun k hk => absurd hk (Nat.not_lt_zero k), fun _ => rfl⟩
  | cons q first rest ih =>
    rw [first.env] at ih
    exact repliesLeft_cons first.replies first.beyond ih

/-- Lines that are High at the start are the same at the end (R47). -/
theorem Transactions.lines (h : Transactions cmds s t) (hhigh : linesHigh s.lines = s.lines) :
    t.lines = s.lines := by
  induction h with
  | nil => rfl
  | cons q first rest ih =>
    have hu := first.lines.trans hhigh
    rw [ih (by rw [hu]; exact hhigh), hu]

/-- The Framer and the Bit Exchange Engine stand as the last transaction leaves them. -/
theorem Transactions.last (h : Transactions cmds s t) (hne : cmds ≠ []) :
    t.framer.recvSize = replyLength (levelsAfter (cmds.length - 1) s.env.dataIn) ∧
      t.framer.cmdLen = (cmds.getLast hne).length ∧ t.framer.fr = .idle ∧ t.xchg.bx = .idle := by
  induction h with
  | nil => exact absurd rfl hne
  | @cons cmd cmds s u t q first rest ih =>
    cases rest with
    | nil => exact ⟨first.recvSize, first.cmdLen, first.fr, first.bx⟩
    | cons => simpa [first.env, levelsAfter] using ih (List.cons_ne_nil _ _)

end

/-- The byte of the last reply stands at every index it reaches. -/
theorem repliesLeft_read_last {n : Nat} {levels : List Level} {before after : Memory}
    (h : RepliesLeft (n + 1) levels before after) {i : Nat} (hi : i < replyLength (levelsAfter n levels)) :
    Memory.read after i = some (replyByte (levelsAfter n levels) i) :=
  (h i).1 n (Nat.lt_succ_self n) hi fun _ hnj hjn => absurd hjn (by omega)

/-! ### The bursts of polls -/

theorem syncBurst_transactions (n : Nat) (s : State) :
    Transactions (List.replicate n (pollBytes s.params)) s (syncBurst n s) := by
  induction n generalizing s with
  | zero => exact .nil s _
  | succ n ih =>
    have hsend := send_done (pollBytes s.params) (setSync (n + 1) s) (pollBytes_legal s.params)
    obtain ⟨-, -, -, -, hparams, -⟩ := hsend.unchanged
    have hrest := ih (send (pollBytes s.params) (setSync (n + 1) s))
    rw [hparams] at hrest
    exact .cons _ hsend hrest

theorem syncBurst_seq (n : Nat) (s : State) : (syncBurst n s).seq = { s.seq with syncCtr := 0 } := by
  induction n generalizing s with
  | zero => rfl
  | succ n ih =>
    have hsend := send_done (pollBytes s.params) (setSync (n + 1) s) (pollBytes_legal s.params)
    rw [syncBurst, ih]
    simp [hsend.unchanged]

end Sys2Proof.Machine
end

section
/-!
PROOFS. The host operations INIT (R165 to R168) and POLL (R169 to R174, R178, R179).
-/

namespace Sys2Proof.Machine

/-! ### INIT -/

@[simp] theorem exec_init (s : State) : exec .init s = execInit s := rfl

/-- INIT's burst `b` is a run of polls after `Cfg` and the flags, and INIT ends there (R165). -/
theorem execInit_of_idle {s : State} (hidle : s.flags.busy = false) :
    ∃ b, execInit s = .next (endOp b) ∧ b.seq = { s.seq with op := .init, syncCtr := 0 } ∧
      Transactions (List.replicate s.params.initSyncCount (pollBytes s.params)) (initFlags (cfg (accept .init s)))
        b := by
  refine ⟨syncBurst s.params.initSyncCount (initFlags (cfg (accept .init s))), ?_, syncBurst_seq _ _,
    syncBurst_transactions _ (initFlags (cfg (accept .init s)))⟩
  simp [execInit, hidle, runInit]

/-- Settles O29: INIT's polls are a run of transactions, so each clause is what such a run leaves, read after `Cfg`
and the flags; its last reply is that of the last transaction. -/
theorem initConfiguresAndPolls : Obligations.InitConfiguresAndPolls := by
  intro s hidle
  obtain ⟨b, hexec, hseq, hrun⟩ := execInit_of_idle hidle
  obtain ⟨hout, hcache, hflags, hparams, hpower⟩ := hrun.unchanged
  have henv := hrun.env
  have hreplies := hrun.replies
  rw [List.length_replicate] at henv hreplies
  refine ⟨endOp b, hexec, ?flags, hrun.lines rfl, ?seq, hout, hcache, hrun.trace, henv, fun hpos => ?last, hreplies,
    hparams, hpower⟩
  case flags => rw [endOp_flags, hflags]; rfl
  case seq => rw [endOp_seq, hseq]
  case last =>
    obtain ⟨n, hn⟩ := Nat.exists_eq_add_of_le' hpos
    have hlast := hrun.last (by simp [hn])
    rw [List.length_replicate, List.getLast_replicate] at hlast
    refine ⟨?_, hlast⟩
    rw [hn] at hreplies ⊢
    exact repliesLeft_read_last hreplies (Nat.lt_of_lt_of_le (by decide) (responseLength_ge _))

/-! ### The slice of change detection (R170 to R173) -/

theorem sliceLength_digital : sliceLength 0x41 = 2 := rfl

theorem sliceLength_of_ne {m : Byte} (hmode : m ≠ 0x41) : sliceLength m = 6 := if_neg hmode

theorem lt_sliceLength_iff {m : Byte} {j : Nat} : j < sliceLength m ↔ j < 6 ∧ (m = 0x41 → j < 2) := by
  by_cases hmode : m = 0x41
  · rw [hmode, sliceLength_digital]
    exact ⟨fun h => ⟨by omega, fun _ => h⟩, fun h => h.2 rfl⟩
  · simp only [sliceLength_of_ne hmode, hmode, false_implies, and_true]

/-- `same` as POLL computes it is R171's. -/
theorem sameReply_iff {u : State} : sameReply u = true ↔ SameReply u.cache u := by
  simp only [sameReply, SameReply, modeByte, Bool.and_eq_true, beq_iff_eq, List.all_eq_true, List.mem_range,
    lt_sliceLength_iff, and_assoc]
  refine and_congr_right' (and_congr_right' ⟨fun h j hj => ?_, fun h j hj => ?_⟩)
  · simpa using h j ⟨j.isLt, hj⟩
  · simpa [hj.1] using h ⟨j, hj.1⟩ hj.2

/-- POLL's refresh is R173's. -/
theorem refreshCache_refreshed (u : State) : CacheRefreshed u.cache (refreshCache u).cache u := by
  refine ⟨rfl, rfl, fun j => ?_⟩
  rw [refreshCache_cache, modeByte]
  by_cases hmode : bufAt u 1 = 0x41
  · rw [hmode, sliceLength_digital]
    fin_cases j <;> rfl
  · rw [sliceLength_of_ne hmode, if_neg fun h => hmode h.1]
    fin_cases j <;> rfl

/-! ### The outputs DECODE leaves (R148, R162) -/

/-- DECODE writes the outputs of one layout, or on the strict raise none. -/
theorem decodeReply_out (s : State) :
    (decodeReply s).out =
      if (s.params.strictMode && unrecognised (modeByte s)) = true then s.out
      else if modeByte s = 0x79 then (layoutPressure s).out
      else if modeByte s = 0x73 then (layoutAnalog s).out
      else (layoutDigital s).out := by
  obtain ⟨hm, hd⟩ | ⟨hm, hd⟩ | ⟨h79, h73, hs, hd⟩ | ⟨-, -, hs, hd⟩ := decodeReply_cases s
  · rw [hd, hm, if_neg (by simp [unrecognised]), if_pos rfl]
  · rw [hd, hm, if_neg (by simp [unrecognised]), if_neg (by decide), if_pos rfl]
  · rw [hd, if_neg (by simp [hs]), if_neg h79, if_neg h73]
  · rw [hd, if_pos hs, raiseError_out]

/-- Where it does not raise, DECODE writes the outputs and nothing else. -/
theorem decodeReply_of_listed {s : State} (h : (s.params.strictMode && unrecognised (modeByte s)) = false) :
    decodeReply s = { s with out := (decodeReply s).out } := by
  obtain ⟨-, hd⟩ | ⟨-, hd⟩ | ⟨-, -, -, hd⟩ | ⟨-, -, hs, -⟩ := decodeReply_cases s
  · rw [hd]; rfl
  · rw [hd]; rfl
  · rw [hd]; rfl
  · simp [h] at hs

/-- A DECODE of the bytes another DECODE read leaves the same outputs, from the outputs the other found and also from
those it left. -/
theorem decodeReply_out_of_sameBytes {s u : State} (hparams : u.params = s.params)
    (hbytes : ∀ i, bufAt u i = bufAt s i) (hout : u.out = s.out ∨ u.out = (decodeReply s).out) :
    (decodeReply u).out = (decodeReply s).out := by
  have hmode : modeByte u = modeByte s := hbytes 1
  have hfield : buttonField u = buttonField s := by simp only [buttonField, hbytes]
  have haxis : axisBytes u = axisBytes s := by simp only [axisBytes, hbytes]
  have hint : intensityBytes u = intensityBytes s := by simp only [intensityBytes, hbytes]
  rw [decodeReply_out s] at hout ⊢
  rw [decodeReply_out u, hparams, hmode]
  split_ifs at hout ⊢ with hraise hpress hana
  · exact hout.elim id id
  · simp only [layoutPressure_out, hfield, haxis, hint, hparams]
  · obtain hkeep | hsame := hout
    · simp only [layoutAnalog_out, hfield, haxis, hkeep]
    · simp only [layoutAnalog_out, hfield, haxis, hsame]
  · obtain hkeep | hsame := hout
    · simp only [layoutDigital_out, hfield, hkeep]
    · simp only [layoutDigital_out, hfield, hsame]

/-! ### POLL after its transaction (R169) -/

/-- The rest of POLL: the comparison, and DECODE where the comparison has not ended the operation. -/
def concludePoll (u : State) : State :=
  if (compareReply u).flags.busy then finishPoll (decodeReply (compareReply u)) else compareReply u

@[simp] theorem exec_poll (s : State) : exec .poll s = execPoll s := rfl

theorem runPoll_eq (s : State) : runPoll s = concludePoll (send (pollBytes s.params) (accept .poll s)) := rfl

theorem initialised_of_linesReady {s : State} (hready : linesReady s = true) : s.flags.initialised = true :=
  (Bool.and_eq_true_iff.mp hready).1

theorem execPoll_of_ready {s : State} (hidle : s.flags.busy = false) (hready : linesReady s = true) :
    execPoll s = .next (concludePoll (send (pollBytes s.params) (accept .poll s))) := by
  simp [execPoll, hidle, hready, initialised_of_linesReady hready, runPoll_eq]

/-- The strict test of POLL is R160's. -/
theorem strictTest_iff {u : State} :
    (u.params.strictMode && unrecognised (modeByte u)) = true ↔
      u.params.strictMode = true ∧ bufAt u 1 ≠ 0x41 ∧ bufAt u 1 ≠ 0x73 ∧ bufAt u 1 ≠ 0x79 := by
  rw [Bool.and_eq_true, unrecognised_iff, modeByte]

/-- The test for "no change" is R172's. -/
theorem noChangeTest_iff {u : State} :
    (u.params.changeDetect && sameReply u) = true ↔ u.params.changeDetect = true ∧ SameReply u.cache u := by
  rw [Bool.and_eq_true, sameReply_iff]

/-- The three outcomes of a POLL whose transaction left `u`: the strict raise, "no change", and a decode. -/
theorem concludePoll_cases {u : State} (hbusy : u.flags.busy = true) (hop : u.seq.op = .poll) :
    ((u.params.strictMode && unrecognised (modeByte u)) = true ∧
        concludePoll u = raiseError .unrecognizedMode (refreshCache u)) ∨
      ((u.params.strictMode && unrecognised (modeByte u)) = false ∧
        (u.params.changeDetect && sameReply u) = true ∧
        concludePoll u = endOp (setChanged false (refreshCache u))) ∨
      ((u.params.strictMode && unrecognised (modeByte u)) = false ∧
        (u.params.changeDetect && sameReply u) = false ∧
        concludePoll u = endOp (setChanged true { refreshCache u with out := (decodeReply u).out })) := by
  unfold concludePoll
  obtain ⟨hstrict, hc⟩ | ⟨hlisted, hsame, hc⟩ | ⟨hlisted, hsame, hc⟩ := compareReply_cases u
  · exact .inl ⟨hstrict, by rw [hc]; rfl⟩
  · exact .inr (.inl ⟨hlisted, hsame, by rw [hc]; rfl⟩)
  · have hout : (decodeReply (refreshCache u)).out = (decodeReply u).out :=
      decodeReply_out_of_sameBytes rfl (fun _ => rfl) (.inl rfl)
    have hd : decodeReply (refreshCache u) = { refreshCache u with out := (decodeReply u).out } :=
      hout ▸ decodeReply_of_listed hlisted
    refine .inr (.inr ⟨hlisted, hsame, ?_⟩)
    rw [hc, refreshCache_flags, if_pos hbusy, hd]
    exact if_pos hop

/-- Whatever the outcome, POLL refreshes the cache, ends the operation, and writes outside the cache, the outputs,
the flags and the sequencer nothing (R173, R178). -/
theorem concludePoll_frame {u : State} (hbusy : u.flags.busy = true) (hop : u.seq.op = .poll) :
    (concludePoll u).cache = (refreshCache u).cache ∧ (concludePoll u).flags.busy = false ∧
      (concludePoll u).flags.initialised = u.flags.initialised ∧
      (concludePoll u).seq = { u.seq with op := .none, neg := .idle } ∧
      concludePoll u = { u with
        cache := (concludePoll u).cache, out := (concludePoll u).out, flags := (concludePoll u).flags,
        seq := (concludePoll u).seq } := by
  obtain ⟨-, h⟩ | ⟨-, -, h⟩ | ⟨-, -, h⟩ := concludePoll_cases hbusy hop <;> rw [h] <;>
    exact ⟨rfl, rfl, rfl, rfl, rfl⟩

/-- Settles O30: the clauses that hold of every outcome are POLL's frame, and each outcome's own clause is that case
of POLL's conclusion, since the two tests of the model are those of R160 and R171. -/
theorem pollRunsToItsEnd : Obligations.PollRunsToItsEnd := by
  intro s hidle _ hready
  have hdone := send_done (pollBytes s.params) (accept .poll s) (pollBytes_legal s.params)
  have hexec := execPoll_of_ready hidle hready
  generalize send (pollBytes s.params) (accept .poll s) = u at hdone hexec
  obtain ⟨hseq, hout, hcache, hflags, hparams, -⟩ := hdone.unchanged
  rw [accept_seq] at hseq
  rw [accept_flags] at hflags
  have hbusy : u.flags.busy = true := by rw [hflags]
  have hop : u.seq.op = .poll := by rw [hseq]
  have herr : u.flags.err = .noError := by rw [hflags]
  obtain ⟨hcache', hbusy', hinit', hseq', hframe⟩ := concludePoll_frame hbusy hop
  refine ⟨u, concludePoll u, hdone, hexec, ?_, hbusy', ?_, ?_, hframe, ?_⟩
  · rw [hcache']; exact hcache ▸ refreshCache_refreshed u
  · rw [hinit', hflags]; exact initialised_of_linesReady hready
  · rw [hseq', hseq]
  simp only [accept_params, accept_cache, accept_out] at hparams hcache hout
  rw [← hparams, ← hcache, ← strictTest_iff, ← noChangeTest_iff]
  obtain ⟨hraise, h⟩ | ⟨hlisted, hno, h⟩ | ⟨hlisted, hnew, h⟩ := concludePoll_cases hbusy hop
  · rw [h]
    exact ⟨fun _ => ⟨rfl, rfl, hout⟩, fun hlisted => absurd hraise hlisted⟩
  · rw [h]
    exact ⟨fun hraise => absurd hraise (Bool.eq_false_iff.mp hlisted),
      fun _ => ⟨herr, fun _ => ⟨rfl, hout⟩, fun hnew => absurd hno hnew⟩⟩
  · rw [h]
    exact ⟨fun hraise => absurd hraise (Bool.eq_false_iff.mp hlisted), fun _ => ⟨herr,
      fun hno => absurd hno (Bool.eq_false_iff.mp hnew), fun _ => ⟨rfl, decodeReply u, rfl, rfl⟩⟩⟩

/-! ### Two POLLs (R179) -/

theorem replyByte_congr {levels levels' : List Level} {k : Nat}
    (h : ∀ j, j < 8 → levelAt levels (8 * k + j) = levelAt levels' (8 * k + j)) :
    replyByte levels k = replyByte levels' k := by
  have h0 : levelAt levels (8 * k) = levelAt levels' (8 * k) := h 0 (by decide)
  unfold replyByte
  rw [h 7 (by decide), h 6 (by decide), h 5 (by decide), h 4 (by decide), h 3 (by decide), h 2 (by decide),
    h 1 (by decide), h0]

/-- Where the levels after a reply spell the reply again, two transactions leave in `BUF` what the first left: the
second reply has the same bytes, and what it does not reach it keeps. -/
theorem bufAt_of_repeatedReply {cmd : List Byte} {s u v w : State} (first : TransactionDone cmd s u)
    (second : TransactionDone cmd v w) (henv : v.env = u.env) (hbuf : v.buf = u.buf) (hpower : v.powerOns = u.powerOns)
    (hrepeat : ∀ k, k < 8 * replyLength s.env.dataIn →
      levelAt s.env.dataIn (8 * replyLength s.env.dataIn + k) = levelAt s.env.dataIn k) (i : Nat) :
    bufAt w i = bufAt u i := by
  have hge : 3 ≤ replyLength s.env.dataIn := responseLength_ge _
  have hbyte : ∀ k, k < replyLength s.env.dataIn → replyByte v.env.dataIn k = replyByte s.env.dataIn k := by
    intro k hk
    rw [henv, first.env]
    exact replyByte_congr fun j hj => by rw [levelAt_drop, hrepeat _ (by omega)]
  have hlen : replyLength v.env.dataIn = replyLength s.env.dataIn := congrArg responseLength (hbyte 1 (by omega))
  by_cases hi : i < replyLength s.env.dataIn
  · rw [bufAt_of_read (second.replies i (hlen ▸ hi)), bufAt_of_read (first.replies i hi), hbyte i hi]
  · obtain ⟨-, -, -, -, -, hsecond⟩ := second.unchanged
    rw [bufAt, second.beyond i (by omega), hsecond, hbuf, hpower, bufAt]

/-- The slice of a refreshed cache is that of any buffer with the same bytes (R171, R173). -/
theorem sameReply_of_refreshed {c c' : Cache} {u w : State} (h : CacheRefreshed c c' u)
    (hbytes : ∀ i, bufAt w i = bufAt u i) : SameReply c' w := by
  obtain ⟨hvalid, hmode, hslice⟩ := h
  refine ⟨hvalid, by rw [hmode, hbytes], fun j hj => ?_⟩
  rw [hbytes] at hj
  rw [hslice, if_neg fun h => absurd (hj h.1) (by omega), hbytes]

/-- Settles O31: the second POLL finds the bytes of the first and a cache of them, so with change detection it reports
no change; without, it decodes the same bytes over the outputs the first DECODE left. -/
theorem pollIsIdempotent : Obligations.PollIsIdempotent := by
  intro s hidle hready hrepeat
  obtain ⟨u, t, hsend, hexec, hcache, hbusy, hinit, -, hframe, hraise, hlisted⟩ :=
    pollRunsToItsEnd s hidle (initialised_of_linesReady hready) hready
  obtain ⟨-, -, -, -, hparams, -⟩ := hsend.unchanged
  have hreadyT : linesReady t = true := by
    rw [linesReady, hinit, hframe]
    simp [hsend.lines, linesHigh]
  obtain ⟨w, v, hsend', hexec', -, -, -, -, -, hraise', hlisted'⟩ :=
    pollRunsToItsEnd t hbusy hinit hreadyT
  obtain ⟨henvT, hbufT, hpowerT, hparamsT⟩ :
      t.env = u.env ∧ t.buf = u.buf ∧ t.powerOns = u.powerOns ∧ t.params = s.params := by
    rw [hframe]
    exact ⟨rfl, rfl, rfl, hparams⟩
  have hbytes : ∀ i, bufAt w i = bufAt u i :=
    bufAt_of_repeatedReply (v := accept .poll t) hsend (hparamsT ▸ hsend') henvT hbufT hpowerT hrepeat
  have hsame := sameReply_of_refreshed hcache hbytes
  rw [hparamsT, hbytes] at hraise' hlisted'
  refine ⟨t, v, hexec, hexec', ?_⟩
  by_cases hstrict : s.params.strictMode = true ∧ bufAt u 1 ≠ 0x41 ∧ bufAt u 1 ≠ 0x73 ∧ bufAt u 1 ≠ 0x79
  · obtain ⟨-, hchanged, hout⟩ := hraise' hstrict
    exact ⟨hout, fun _ => hchanged⟩
  obtain ⟨-, -, hdecode⟩ := hlisted hstrict
  obtain ⟨-, hkeep', hdecode'⟩ := hlisted' hstrict
  by_cases hdetect : s.params.changeDetect = true
  · obtain ⟨hchanged, hout⟩ := hkeep' ⟨hdetect, hsame⟩
    exact ⟨hout, fun _ => hchanged⟩
  obtain ⟨-, d, hd, hout⟩ := hdecode fun h => hdetect h.1
  obtain ⟨-, d', hd', hout'⟩ := hdecode' fun h => hdetect h.1
  obtain rfl : decodeReply u = d := by simpa using hd
  obtain rfl : decodeReply w = d' := by simpa using hd'
  obtain ⟨-, houtW, -, -, hparamsW, -⟩ := hsend'.unchanged
  have hdecoded : (decodeReply w).out = (decodeReply u).out :=
    decodeReply_out_of_sameBytes (hparamsW.trans (hparamsT.trans hparams.symm)) hbytes (.inr (houtW.trans hout))
  exact ⟨hout'.trans (hdecoded.trans hout.symm), fun h => absurd h hdetect⟩

end Sys2Proof.Machine
end

section
/-!
PROOFS. The reference behaviour has no errors (R185): every operation of the model keeps a state without errors such.
-/

namespace Sys2Proof.Machine

/-! ### The states without errors -/

/-- The reference behaviour, no retry cap and no strict mode, with nothing raised (R137, R160, R185). -/
structure ErrorFree (s : State) : Prop where
  uncapped : s.params.retryCap = none
  lenient : s.params.strictMode = false
  noError : s.flags.err = .noError

section
variable {s t : State}

/-- Only the parameters and `ERR` play a part. -/
theorem ErrorFree.congr (h : ErrorFree s) (hparams : t.params = s.params) (herr : t.flags.err = s.flags.err) :
    ErrorFree t :=
  ⟨hparams ▸ h.uncapped, hparams ▸ h.lenient, herr.trans h.noError⟩

/-! ### EXCHANGE and FRAME where they answer -/

theorem execExchange_eq_next {b : Byte} : execExchange b s = .next t ↔ linesReady s = true ∧ exchange b s = t := by
  unfold execExchange
  split <;> simp [*]

theorem execFrame_eq_next : execFrame s = .next t ↔ linesReady s = true ∧ frame s = t := by
  unfold execFrame
  split <;> simp [*]

/-! ### Transactions write neither flags nor parameters -/

/-- A transaction, whatever command is latched. -/
theorem frame_flags_params (s : State) : (frame s).flags = s.flags ∧ (frame s).params = s.params := by
  obtain ⟨m, hm⟩ : ∃ m, replyLength s.env.dataIn = m + 1 :=
    Nat.exists_eq_add_of_le' (le_trans (by decide) (responseLength_ge _))
  obtain ⟨-, -, -, hflags, hparams, -⟩ := (foldl_exchangeAt_done m (wait .att (wr .att false s))).others
  rw [frame_eq, hm]
  exact ⟨hflags, hparams⟩

theorem send_flags (cmd : List Byte) (s : State) : (send cmd s).flags = s.flags :=
  (frame_flags_params (latchCommand cmd s)).1

theorem exchange_flags (b : Byte) (s : State) : (exchange b s).flags = s.flags := by
  rw [exchange_eq]

theorem frame_errorFree (h : ErrorFree s) : ErrorFree (frame s) :=
  h.congr (frame_flags_params s).2 (congrArg Flags.err (frame_flags_params s).1)

theorem send_errorFree {cmd : List Byte} (h : ErrorFree s) : ErrorFree (send cmd s) :=
  frame_errorFree (h.congr rfl rfl)

theorem trySend_errorFree {cmd : List Byte} (h : ErrorFree s) (ht : trySend cmd s = .next t) : ErrorFree t := by
  obtain ⟨-, -, rfl⟩ := trySend_eq_next.mp ht
  exact send_errorFree h

theorem syncBurst_errorFree {n : Nat} (h : ErrorFree s) : ErrorFree (syncBurst n s) := by
  obtain ⟨-, -, hflags, hparams, -⟩ := (syncBurst_transactions n s).unchanged
  exact h.congr hparams (congrArg Flags.err hflags)

/-- A row of R108. -/
theorem bitPhaseStep_flags_params (s : State) :
    (bitPhaseStep s).flags = s.flags ∧ (bitPhaseStep s).params = s.params := by
  unfold bitPhaseStep
  cases s.xchg.bx with
  | holdHi => dsimp only; split <;> exact ⟨rfl, rfl⟩
  | _ => exact ⟨rfl, rfl⟩

/-- A row of R123. -/
theorem framerPhaseStep_flags_params (s : State) :
    (framerPhaseStep s).flags = s.flags ∧ (framerPhaseStep s).params = s.params := by
  unfold framerPhaseStep
  split <;> exact ⟨rfl, rfl⟩

theorem framerReturn_flags_params (s : State) :
    (framerReturn s).flags = s.flags ∧ (framerReturn s).params = s.params := by
  unfold framerReturn
  dsimp only
  cases (storeBuf s.framer.idx s.xchg.rx s).framer.fr with
  | body => dsimp only; split <;> exact ⟨rfl, rfl⟩
  | _ => exact ⟨rfl, rfl⟩

theorem phaseStep_flags_params (s : State) :
    (phaseStep s).flags = s.flags ∧ (phaseStep s).params = s.params := by
  unfold phaseStep
  split
  · exact framerPhaseStep_flags_params s
  · dsimp only
    split
    · exact bitPhaseStep_flags_params s
    · obtain ⟨hflags, hparams⟩ := framerReturn_flags_params (bitPhaseStep s)
      obtain ⟨hflags', hparams'⟩ := bitPhaseStep_flags_params s
      exact ⟨hflags.trans hflags', hparams.trans hparams'⟩
  · exact bitPhaseStep_flags_params s

/-! ### The two raises do not happen (R137, R160) -/

/-- With no retry cap the Confirmed check never times out. -/
theorem confirmCheck_errorFree (h : ErrorFree s) : ErrorFree (confirmCheck s) := by
  obtain ⟨-, hend⟩ | ⟨-, hcap, -⟩ | ⟨-, -, hnext⟩ := confirmCheck_cases s
  · exact hend ▸ h.congr rfl rfl
  · simp [capReached, h.uncapped] at hcap
  · exact hnext ▸ h.congr rfl rfl

/-- Without strict mode POLL's strict check passes. -/
theorem compareReply_errorFree (h : ErrorFree s) : ErrorFree (compareReply s) := by
  obtain ⟨hstrict, -⟩ | ⟨-, -, hend⟩ | ⟨-, -, hgo⟩ := compareReply_cases s
  · simp [h.lenient] at hstrict
  · exact hend ▸ h.congr rfl rfl
  · exact hgo ▸ h.congr rfl rfl

/-- Without strict mode DECODE is a layout. -/
theorem decodeReply_errorFree (h : ErrorFree s) : ErrorFree (decodeReply s) := by
  obtain ⟨-, hd⟩ | ⟨-, hd⟩ | ⟨-, -, hd⟩ := decodeReply_cases_of_reference h.lenient <;> exact hd ▸ h.congr rfl rfl

theorem layoutOther_errorFree {m : Byte} (h : ErrorFree s) : ErrorFree (layoutOther m s) :=
  layoutOther_of_reference m h.lenient ▸ h.congr rfl rfl

/-! ### The moves of the sequencer -/

theorem finishPoll_errorFree (h : ErrorFree s) : ErrorFree (finishPoll s) := by
  unfold finishPoll
  split
  · exact h.congr rfl rfl
  · exact h

theorem burstAdvance_errorFree (h : ErrorFree s) : ErrorFree (burstAdvance s) := by
  unfold burstAdvance
  dsimp only
  split <;> exact h.congr rfl rfl

/-- A move of the handshake: the Confirmed check after the last Resyncing poll, and otherwise registers of the
sequencer, or the end of the operation. -/
theorem negotiationAdvance_errorFree (h : ErrorFree s) : ErrorFree (negotiationAdvance s) := by
  unfold negotiationAdvance
  split
  · exact h
  · exact h.congr rfl rfl
  · exact h.congr rfl rfl
  · split
    · split <;> exact h.congr rfl rfl
    · exact h.congr rfl rfl
    · split <;> exact h.congr rfl rfl
  · exact h.congr rfl rfl
  · dsimp only
    split
    · exact confirmCheck_errorFree (h.congr rfl rfl)
    · exact h.congr rfl rfl

theorem advance_errorFree (h : ErrorFree s) : ErrorFree (advance s) := by
  unfold advance
  split
  · exact h
  · exact burstAdvance_errorFree h
  · exact finishPoll_errorFree h
  · exact negotiationAdvance_errorFree h

theorem advanceTransaction_errorFree (h : ErrorFree s) : ErrorFree (advanceTransaction s) := by
  unfold advanceTransaction
  split
  · exact compareReply_errorFree h
  · exact advance_errorFree h

/-! ### The host operations and the handshake as a whole -/

theorem execInit_errorFree (h : ErrorFree s) (ht : execInit s = .next t) : ErrorFree t := by
  unfold execInit at ht
  split at ht <;> cases ht
  · exact h
  · exact (syncBurst_errorFree (s := initFlags (cfg (accept .init s)))
      ⟨h.uncapped, h.lenient, rfl⟩).congr rfl rfl

theorem concludePoll_errorFree (h : ErrorFree s) : ErrorFree (concludePoll s) := by
  unfold concludePoll
  split
  · exact finishPoll_errorFree (decodeReply_errorFree (compareReply_errorFree h))
  · exact compareReply_errorFree h

theorem execPoll_errorFree (h : ErrorFree s) (ht : execPoll s = .next t) : ErrorFree t := by
  unfold execPoll at ht
  split at ht
  · cases ht; exact h
  split at ht <;> cases ht
  exact concludePoll_errorFree (send_errorFree ⟨h.uncapped, h.lenient, rfl⟩)

theorem clearAttempts_errorFree (h : ErrorFree s) : ErrorFree (clearAttempts s) := by
  unfold clearAttempts
  split <;> exact h.congr rfl rfl

theorem execSetMode_errorFree {target : Target} {lock : Bool} (h : ErrorFree s)
    (ht : execSetMode target lock s = .next t) : ErrorFree t := by
  unfold execSetMode at ht
  split at ht <;> cases ht
  · exact h
  · exact (clearAttempts_errorFree (s := latchTarget target lock (accept .setMode s))
      ⟨h.uncapped, h.lenient, rfl⟩).congr rfl rfl

theorem setNeg_errorFree {n : Neg} (h : ErrorFree s) : ErrorFree (setNeg n s) := h.congr rfl rfl

theorem setSubSeq_errorFree {q : SubSeq} (h : ErrorFree s) : ErrorFree (setSubSeq q s) := h.congr rfl rfl

theorem setSlot_errorFree {k : Fin 12} (h : ErrorFree s) : ErrorFree (setSlot k s) := h.congr rfl rfl

theorem pressureSlot_errorFree (h : ErrorFree s) (k : Fin 12) : ErrorFree (pressureSlot s k) :=
  send_errorFree (setSubSeq_errorFree (send_errorFree (setSubSeq_errorFree (setSlot_errorFree h))))

/-- One pass of the handshake's loop: transactions, moves of the sequencer, and the Confirmed check. -/
theorem negotiationPass_errorFree (h : ErrorFree s) : ErrorFree (negotiationPass s) := by
  have hmode : ∀ cmd, ErrorFree (send cmd (enterSettingMode (send cfgEnterBytes s))) := fun _ =>
    send_errorFree (setSubSeq_errorFree (setNeg_errorFree (send_errorFree h)))
  unfold negotiationPass
  refine confirmCheck_errorFree (syncBurst_errorFree (setNeg_errorFree (send_errorFree (setNeg_errorFree ?_))))
  split
  · exact List.foldlRecOn slotOrder pressureSlot (hmode _) fun _ hu k _ => pressureSlot_errorFree hu k
  · exact hmode _

theorem execNegotiate_errorFree (h : ErrorFree s) (ht : execNegotiate s = .next t) : ErrorFree t := by
  unfold execNegotiate at ht
  split at ht
  · split at ht <;> cases ht
    exact negotiationPass_errorFree ((clearAttempts_errorFree h).congr rfl rfl)
  · cases ht

/-! ### Instructions and steps -/

/-- No instruction raises in the reference behaviour (R185). -/
theorem exec_errorFree {i : Instr} (h : ErrorFree s) (ht : exec i s = .next t) : ErrorFree t := by
  cases i with
  | init => exact execInit_errorFree h ht
  | poll => exact execPoll_errorFree h ht
  | setMode => exact execSetMode_errorFree h ht
  | hostReserved => cases ht; exact h
  | pollCmd => exact trySend_errorFree h ht
  | cfgEnter => exact trySend_errorFree h ht
  | cfgExit => exact trySend_errorFree h ht
  | setModeCmd => exact trySend_errorFree h ht
  | pressEn => exact trySend_errorFree h ht
  | pressCfg => exact trySend_errorFree h ht
  | send => exact trySend_errorFree h ht
  | modeDigital => cases ht; exact h.congr rfl rfl
  | modeAnalog => cases ht; exact h.congr rfl rfl
  | modePressure => cases ht; exact h.congr rfl rfl
  | modeConfig => cases ht; exact layoutOther_errorFree h
  | modeOther => cases ht; exact layoutOther_errorFree h
  | decode => cases ht; exact decodeReply_errorFree h
  | frame =>
    obtain ⟨-, rfl⟩ := execFrame_eq_next.mp ht
    exact frame_errorFree h
  | exchange b =>
    obtain ⟨-, rfl⟩ := execExchange_eq_next.mp ht
    exact exchange_eq b s ▸ h.congr rfl rfl
  | negotiate => exact execNegotiate_errorFree h ht

theorem transactionStep_errorFree (h : ErrorFree s) (ht : transactionStep s = .next t) : ErrorFree t := by
  have hphase : ErrorFree (phaseStep s) :=
    h.congr (phaseStep_flags_params s).2 (congrArg Flags.err (phaseStep_flags_params s).1)
  unfold transactionStep at ht
  dsimp only at ht
  split at ht
  · split at ht
    · cases ht
    · split at ht <;> cases ht
      · exact advanceTransaction_errorFree hphase
      · exact hphase
  · cases ht

theorem idleStep_errorFree (h : ErrorFree s) (ht : idleStep s = .next t) : ErrorFree t := by
  unfold idleStep at ht
  split at ht
  · split at ht <;> cases ht
    exact h.congr rfl rfl
  · cases ht; exact h

theorem cycle_errorFree (h : ErrorFree s) (ht : cycle s = .next t) : ErrorFree t := by
  have htaken : ErrorFree (takeInputs s) := h.congr rfl rfl
  obtain ⟨-, hrow⟩ | ⟨-, -, i, u, -, hexec, rfl⟩ | ⟨-, -, i, -, hexec⟩ | ⟨-, -, hidle⟩ := cycle_cases ht
  · exact transactionStep_errorFree htaken hrow
  · exact advance_errorFree (exec_errorFree htaken hexec)
  · exact exec_errorFree htaken hexec
  · exact idleStep_errorFree htaken hidle

/-- A step leaves no error: a cycle raises none, and a reset clears `ERR` (R46). -/
theorem step_noError (h : ErrorFree s) (ht : step s = .next t) : t.flags.err = .noError := by
  obtain ⟨-, hcycle⟩ | ⟨-, rfl⟩ | ⟨n, u, -, -, rfl⟩ := step_cases ht
  · exact (cycle_errorFree h hcycle).noError
  · rfl
  · rfl

end

/-- Settles O56: the states without errors are kept by every cycle, since the two raises stand behind a retry cap and
strict mode; EXCHANGE and SEND write no flag in any variant. -/
theorem referenceBehaviourHasNoErrors : Obligations.ReferenceBehaviourHasNoErrors := by
  refine fun s t => ⟨fun huncapped hlenient hnone hstep => step_noError ⟨huncapped, hlenient, hnone⟩ hstep,
    fun b hexec => ?exchange, fun cmd hexec => ?send⟩
  case exchange =>
    obtain ⟨-, rfl⟩ := execExchange_eq_next.mp hexec
    exact exchange_flags b s
  case send =>
    obtain ⟨-, -, rfl⟩ := trySend_eq_next.mp hexec
    exact send_flags cmd s

end Sys2Proof.Machine
end

section
/-!
PROOFS. Encoding: every word decodes to the instruction it was written for (R70 to R91), and the reserved host words
(R76).
-/

namespace Sys2Proof

/-! ### The host level and the mode bytes -/

theorem decodeHost_setModeWord (t : Target) (l : Bool) : decodeHost (setModeWord t l) = .setMode t l := by
  cases t <;> cases l <;> rfl

/-- A word that encodes no operation decodes to itself (R76). -/
theorem decodeHost_of_reserved {w : Byte} (h : reservedHostWord w = true) : decodeHost w = .hostReserved w := by
  simp only [reservedHostWord, Bool.or_eq_true, Bool.and_eq_true, bne_iff_ne, beq_iff_eq] at h
  unfold decodeHost
  obtain (hhigh | hopc) | ⟨hopc, htgt⟩ := h
  · rw [if_pos hhigh]
  · simp [hopc]
  · simp [hopc, htgt, targetOfCode]

/-- Only `OPC` = 0 is INIT (R74, R75). -/
theorem decodeHost_of_opc_ne_zero {w : Byte} (h : w.extractLsb' 0 2 ≠ 0) :
    decodeHost w = .poll ∨ (∃ t l, decodeHost w = .setMode t l) ∨ ∃ v, decodeHost w = .hostReserved v := by
  unfold decodeHost
  split_ifs
  · exact .inr (.inr ⟨w, rfl⟩)
  · exact .inl rfl
  · cases targetOfCode (w.extractLsb' 2 2) with
    | some t => exact .inr (.inl ⟨t, _, rfl⟩)
    | none => exact .inr (.inr ⟨w, rfl⟩)
  · exact .inr (.inr ⟨w, rfl⟩)

/-- A byte outside the four listed ones is no mode of its own (R88, R157). -/
theorem decodeMode_of_other {b : Byte} (h : otherModeByte b = true) : decodeMode b = .modeOther b := by
  simp only [otherModeByte, Bool.and_eq_true, bne_iff_ne, and_assoc] at h
  obtain ⟨h41, h73, h79, hF3⟩ := h
  simp only [decodeMode, modeOf, if_neg h41, if_neg h73, if_neg h79, if_neg hF3]

/-! ### The wire level -/

/-- A list SEND accepts passes both length checks of the wire decoder (R121). -/
theorem length_of_legal {p : Params} {bs : List Byte} (h : legalCommand p bs = true) :
    bs.length ≠ 0 ∧ ¬p.cmdCap.val < bs.length := by
  simp only [legalCommand, Bool.and_eq_true, decide_eq_true_eq] at h
  omega

theorem decodeWire_of_fixed {p : Params} {bs : List Byte} {i : Instr} (h : legalCommand p bs = true)
    (hfixed : decodeFixedWire bs = some i) : decodeWire p bs = .ok i := by
  rw [decodeWire, if_neg (length_of_legal h).1, if_neg (length_of_legal h).2, hfixed]

theorem decodeWire_of_param {p : Params} {bs : List Byte} {i : Instr} (h : legalCommand p bs = true)
    (hfixed : decodeFixedWire bs = none) (hparam : decodeParamWire p bs = some i) : decodeWire p bs = .ok i := by
  rw [decodeWire, if_neg (length_of_legal h).1, if_neg (length_of_legal h).2, hfixed]
  simp only [hparam]

/-- The commands no parameter gives begin with 0x43 or 0x44, POLL_CMD with 0x42 (R82 to R85). -/
theorem decodeFixedWire_pollBytes (p : Params) : decodeFixedWire (pollBytes p) = none := by
  obtain ⟨rest, hrest⟩ := List.head?_eq_some_iff.mp p.pollCmd.property.1
  simp [decodeFixedWire, pollBytes, hrest, cfgEnterBytes, cfgExitBytes]

/-- What `commandsDistinct` says of PRESS_CFG and of each PRESS_EN. -/
theorem Params.commandsDistinct_iff {p : Params} :
    p.commandsDistinct = true ↔
      (decodeFixedWire (pressCfgBytes p) = none ∧ pressCfgBytes p ≠ pollBytes p) ∧
        ∀ s, decodeFixedWire (pressEnBytes p s) = none ∧ pressEnBytes p s ≠ pollBytes p ∧
          pressEnBytes p s ≠ pressCfgBytes p ∧ ∀ r, r = s ∨ pressEnBytes p r ≠ pressEnBytes p s := by
  unfold pressCfgBytes pollBytes pressEnBytes
  simp only [Params.commandsDistinct, Bool.and_eq_true, Bool.or_eq_true, List.all_eq_true, bne_iff_ne, beq_iff_eq,
    Option.isNone_iff_eq_none, Machine.mem_slotOrder, true_implies, and_assoc]

/-- Where no other slot has its bytes, the search finds the slot itself. -/
theorem find_slot {p : Params} {s : Fin 12} (h : ∀ r, r = s ∨ pressEnBytes p r ≠ pressEnBytes p s) :
    (slotOrder.find? fun r => pressEnBytes p s == pressEnBytes p r) = some s := by
  cases hfind : slotOrder.find? fun r => pressEnBytes p s == pressEnBytes p r with
  | none => simpa using List.find?_eq_none.mp hfind s (Machine.mem_slotOrder s)
  | some r =>
    have hr : pressEnBytes p s = pressEnBytes p r := by simpa using List.find?_some hfind
    rw [(h r).resolve_right fun hne => hne hr.symm]

/-- Settles O3: each level has its own round trip; at the wire level the fixed bytes are tried first, then POLL_CMD,
PRESS_CFG and the slots, and `commandsDistinct` keeps every earlier one from matching. -/
theorem encodeThenDecode : Obligations.EncodeThenDecode := by
  intro p i f bs hwf hdistinct hi henc
  obtain ⟨⟨hcfgFixed, hcfgPoll⟩, hen⟩ := Params.commandsDistinct_iff.mp hdistinct
  cases i <;> cases henc
  case init => rfl
  case poll => rfl
  case setMode t l => exact congrArg Except.ok (decodeHost_setModeWord t l)
  case hostReserved w => exact congrArg Except.ok (decodeHost_of_reserved hi)
  case pollCmd =>
    exact decodeWire_of_param (pollBytes_legal p) (decodeFixedWire_pollBytes p) (if_pos rfl)
  case cfgEnter => exact decodeWire_of_fixed (cfgEnterBytes_legal p) rfl
  case cfgExit => exact decodeWire_of_fixed (cfgExitBytes_legal p) rfl
  case setModeCmd a l => exact decodeWire_of_fixed (setModeBytes_legal p a l) rfl
  case pressEn s =>
    obtain ⟨hfixed, hpoll, hcfg, hothers⟩ := hen s
    refine decodeWire_of_param (hwf.pressEnLegal s) hfixed ?_
    rw [decodeParamWire, if_neg hpoll, if_neg hcfg, find_slot hothers]
    rfl
  case pressCfg =>
    refine decodeWire_of_param hwf.pressCfgLegal hcfgFixed ?_
    rw [decodeParamWire, if_neg hcfgPoll]
    exact if_pos rfl
  case modeDigital => rfl
  case modeAnalog => rfl
  case modePressure => rfl
  case modeConfig => rfl
  case modeOther b => exact congrArg Except.ok (decodeMode_of_other hi)

/-- Settles O1: each word is evaluated; only the wire command of the built-in parameters reads a parameter, and its
POLL_CMD is a literal. -/
theorem writtenWordsDecode : Obligations.WrittenWordsDecode := by
  refine ⟨?_, ?_, ?_, ?_, ?_, ?_, ?_, ?_, ?_, ?_, ?_, ?_, ?_⟩ <;> rfl

end Sys2Proof
end

section
/-!
PROOFS. Events and durations of EXCHANGE and SEND (R105, R122, R234), the independence of the two directions (R104),
which bytes of a command the wire shows (R79, R80), and where SEND stops (R106, R121).
-/

namespace Sys2Proof.Machine

@[simp] theorem exec_frame (s : State) : exec .frame s = execFrame s := rfl
@[simp] theorem exec_negotiate (s : State) : exec .negotiate s = execNegotiate s := rfl

/-! ### Measures of the events -/

theorem length_exchangeEvents (out back : Byte) : (exchangeEvents out back).length = 50 := rfl

/-- One sample in each bit cell (R71). -/
theorem samples_exchangeEvents (out back : Byte) : (exchangeEvents out back).countP PinEvent.isSample = 8 := rfl

/-- A measure that adds up and is the same for every part is a multiple of it. -/
theorem measure_flatMap_range (f : List PinEvent → Nat) (happend : ∀ a b, f (a ++ b) = f a + f b)
    {g : Nat → List PinEvent} {c : Nat} (hpart : ∀ i, f (g i) = c) (n : Nat) :
    f ((List.range n).flatMap g) = n * c := by
  have hnil : f [] = 0 := by have := happend [] []; simpa using this
  induction n with
  | zero => simpa using hnil
  | succ n ih => simp [List.range_succ, happend, hpart, ih, Nat.succ_mul]

theorem traceTime_append (p : Params) (a b : List PinEvent) :
    traceTime p (a ++ b) = traceTime p a + traceTime p b := by
  simp [traceTime]

theorem traceTime_reverse (p : Params) (a : List PinEvent) : traceTime p a.reverse = traceTime p a := by
  simp [traceTime]

/-- Two half-periods in each bit cell, and the settle delay (R71, R102, R103). -/
theorem traceTime_exchangeEvents (p : Params) (out back : Byte) :
    traceTime p (exchangeEvents out back) = 16 * p.tHalf + p.tByte := by
  have hcell : ∀ i, traceTime p (cellEvents out back i) = 2 * p.tHalf := fun i => by
    simp [traceTime, cellEvents, PinEvent.minTime]
    omega
  rw [exchangeEvents, traceTime_append, measure_flatMap_range _ (traceTime_append p) hcell]
  simp [traceTime, PinEvent.minTime]
  omega

/-- A measure that adds up and is the same for every byte: of a transaction it is that of its two Attention edges and
of its N bytes (R122). -/
theorem measure_transactionEvents (f : List PinEvent → Nat) (happend : ∀ a b, f (a ++ b) = f a + f b) {c : Nat}
    (hbyte : ∀ out back, f (exchangeEvents out back) = c) (cmd : List Byte) (levels : List Level) :
    f (transactionEvents cmd levels) =
      f [.wr .att false, .wait .att] + replyLength levels * c + f [.wr .att true, .wait .att] := by
  rw [transactionEvents, happend, happend, measure_flatMap_range f happend fun i => hbyte _ _]

/-- Settles O6: the three measures of the events of one byte, added to those of the trace before. -/
theorem exchangeEventsAndTime : Obligations.ExchangeEventsAndTime := by
  intro s b hready
  refine ⟨exchange b s, by rw [exec_exchange, execExchange_of_ready b hready], ?_⟩
  rw [exchange_eq]
  refine ⟨?_, ?_, ?_⟩
  · rw [List.length_append, List.length_reverse, length_exchangeEvents, Nat.add_comm]
  · rw [List.countP_append, List.countP_reverse, samples_exchangeEvents, Nat.add_comm]
  · rw [traceTime_append, traceTime_reverse, traceTime_exchangeEvents]; omega

/-- A legal SEND with the lines ready, and the events of its transaction on the trace. -/
theorem exec_send_done {s : State} {cmd : List Byte} (hready : linesReady s = true)
    (hlegal : legalCommand s.params cmd = true) :
    exec (.send cmd) s = .next (send cmd s) ∧ TransactionDone cmd s (send cmd s) :=
  ⟨trySend_of_ready hready hlegal, send_done cmd s hlegal⟩

/-- Settles O13: 50 events and 8 samples for each byte, and two events for each Attention edge. -/
theorem transactionEventCount : Obligations.TransactionEventCount := by
  intro s cmd hready hlegal
  obtain ⟨hexec, hdone⟩ := exec_send_done hready hlegal
  have hlen := measure_transactionEvents List.length (fun _ _ => List.length_append) length_exchangeEvents
    cmd s.env.dataIn
  have hsamples := measure_transactionEvents (List.countP PinEvent.isSample) (fun _ _ => List.countP_append)
    samples_exchangeEvents cmd s.env.dataIn
  refine ⟨_, hexec, ?_, ?_⟩
  · rw [hdone.events, hdone.recvSize, List.length_append, List.length_reverse, hlen]
    simp
    omega
  · rw [hdone.events, hdone.recvSize, List.countP_append, List.countP_reverse, hsamples]
    simp [PinEvent.isSample]
    omega

/-- Settles O14. -/
theorem transactionDuration : Obligations.TransactionDuration := by
  intro s cmd hready hlegal
  obtain ⟨hexec, hdone⟩ := exec_send_done hready hlegal
  have htime := measure_transactionEvents (traceTime s.params) (traceTime_append s.params)
    (traceTime_exchangeEvents s.params) cmd s.env.dataIn
  refine ⟨_, hexec, ?_⟩
  rw [hdone.events, hdone.recvSize, traceTime_append, traceTime_reverse, htime]
  simp [traceTime, PinEvent.minTime]
  omega

/-! ### The two directions (R104) -/

/-- What the engine drives in a byte does not depend on the answers. -/
theorem driven_exchangeEvents (out back back' : Byte) :
    (exchangeEvents out back).filter (fun e => !e.isSample) =
      (exchangeEvents out back').filter (fun e => !e.isSample) :=
  rfl

/-- Settles O7: `RX` is spelled by the answers alone, and without the samples the events are those of the byte sent. -/
theorem exchangeDirectionsIndependent : Obligations.ExchangeDirectionsIndependent := by
  intro s u b c hs hu
  refine ⟨exchange b s, exchange c u, by rw [exec_exchange, execExchange_of_ready b hs],
    by rw [exec_exchange, execExchange_of_ready c hu], ?_, ?_⟩
  · intro hdata
    rw [exchange_eq, exchange_eq, hdata]
  · rintro rfl htrace
    rw [exchange_eq, exchange_eq]
    simp only [List.filter_append, List.filter_reverse, htrace]
    rw [driven_exchangeEvents]

/-! ### Which bytes the wire shows (R72, R79, R80) -/

/-- Settles O10. -/
theorem frameCarriesLatchedCommand : Obligations.FrameCarriesLatchedCommand := by
  intro s hready hpos hle
  exact ⟨frame s, execFrame_eq_next.mpr ⟨hready, rfl⟩, frame_done s hpos hle⟩

/-- Two transactions that send the same bytes to the same answers look the same, and leave the same in `BUF`. -/
theorem sameTransaction {cmd cmd' : List Byte} {s t u : State} (ht : TransactionDone cmd s t)
    (hu : TransactionDone cmd' s u) (hsent : ∀ i, i < replyLength s.env.dataIn → sentByte cmd i = sentByte cmd' i) :
    t.trace = u.trace ∧ ∀ i, Memory.read t.buf i = Memory.read u.buf i := by
  refine ⟨?_, fun i => ?_⟩
  · have hbytes : (List.range (replyLength s.env.dataIn)).flatMap (fun i =>
          exchangeEvents (sentByte cmd i) (replyByte s.env.dataIn i)) =
        (List.range (replyLength s.env.dataIn)).flatMap (fun i =>
          exchangeEvents (sentByte cmd' i) (replyByte s.env.dataIn i)) :=
      List.flatMap_congr fun i hi => by rw [hsent i (List.mem_range.mp hi)]
    rw [ht.events, hu.events, transactionEvents, transactionEvents, hbytes]
  · by_cases hi : i < replyLength s.env.dataIn
    · rw [ht.replies i hi, hu.replies i hi]
    · rw [ht.beyond i (Nat.not_lt.mp hi), hu.beyond i (Nat.not_lt.mp hi)]

/-- A trailing 0x00 is the pad that the wire shows anyway (R79, R116). -/
theorem sentByte_append_pads (cmd : List Byte) (k i : Nat) :
    sentByte (cmd ++ List.replicate k 0x00) i = sentByte cmd i := by
  unfold sentByte
  by_cases hi : i - 1 < cmd.length
  · rw [List.getElem?_append_left hi]
  · have hle := Nat.not_lt.mp hi
    rw [List.getElem?_append_right hle, List.getElem?_eq_none hle, List.getElem?_replicate]
    split_ifs <;> rfl

/-- Settles O15. -/
theorem trailingPadsInvisible : Obligations.TrailingPadsInvisible := by
  intro s cmd k hready hpos hfits
  have hshort : legalCommand s.params cmd = true := legalCommand_iff.mpr ⟨hpos, by omega⟩
  have hlong : legalCommand s.params (cmd ++ List.replicate k 0x00) = true :=
    legalCommand_iff.mpr (by rw [List.length_append, List.length_replicate]; omega)
  obtain ⟨hexec, hdone⟩ := exec_send_done hready hshort
  obtain ⟨hexec', hdone'⟩ := exec_send_done hready hlong
  exact ⟨_, _, hexec, hexec', sameTransaction hdone hdone' fun i _ => (sentByte_append_pads cmd k i).symm⟩

/-- Settles O16: the wire index N - 1 shows the byte N - 2 of the list, the last of the first N - 1. -/
theorem truncatedBytesNeverSent : Obligations.TruncatedBytesNeverSent := by
  intro s cmd cmd' hready hlegal hlegal' htake
  obtain ⟨hexec, hdone⟩ := exec_send_done hready hlegal
  obtain ⟨hexec', hdone'⟩ := exec_send_done hready hlegal'
  refine ⟨_, _, hexec, hexec', sameTransaction hdone hdone' fun i hi => ?_⟩
  unfold sentByte
  split_ifs with h0
  · rfl
  · have hlt : i - 1 < replyLength s.env.dataIn - 1 := by omega
    rw [← List.getElem?_take_of_lt hlt, htake, List.getElem?_take_of_lt hlt]

/-! ### Data stuck Low (R228) -/

/-- Eight Low answers spell 0x00. -/
theorem replyByte_of_low {levels : List Level} {k : Nat} (h : ∀ j, j < 8 → levelAt levels (8 * k + j) = false) :
    replyByte levels k = 0x00 := by
  have h0 : levelAt levels (8 * k) = false := h 0 (by decide)
  rw [replyByte, h 7 (by decide), h 6 (by decide), h 5 (by decide), h 4 (by decide), h 3 (by decide), h 2 (by decide),
    h 1 (by decide), h0]
  rfl

/-- Settles O18: the mode byte 0x00 asks for three bytes, all of them Low. -/
theorem stuckLowPollIsShort : Obligations.StuckLowPollIsShort := by
  intro s hready hlow
  have hbyte : ∀ i, i < 3 → replyByte s.env.dataIn i = 0x00 := fun i hi =>
    replyByte_of_low fun j hj => hlow _ (by omega)
  have hlen : replyLength s.env.dataIn = 3 := by rw [replyLength, hbyte 1 (by decide)]; rfl
  obtain ⟨hexec, hdone⟩ := exec_send_done hready (pollBytes_legal s.params)
  refine ⟨_, hexec, hdone.recvSize.trans hlen, fun i hi => ?_, fun i hi => hdone.beyond i (hlen ▸ hi)⟩
  rw [hdone.replies i (hlen ▸ hi), hbyte i hi]

/-! ### Where an exchange of bytes stops -/

theorem trySend_of_notReady {s : State} (cmd : List Byte) (h : linesReady s = false) :
    trySend cmd s = .refused .linesNotReady := by
  simp [trySend, h]

/-- Settles O17: an empty or over-long list is not legal. -/
theorem badCommandsRefused : Obligations.BadCommandsRefused := by
  intro s cmd hready hbad
  have hillegal : legalCommand s.params cmd = false :=
    Bool.eq_false_iff.mpr fun h => by have := legalCommand_iff.mp h; omega
  simp [trySend, hready, hillegal]

/-- Settles O8: every instruction that exchanges bytes tests the lines first; a row that begins an EXCHANGE stands in a
transaction in progress, whose step tests them too. -/
theorem linesMustBeReady : Obligations.LinesMustBeReady := by
  intro s hnot
  have hsend := fun cmd => trySend_of_notReady cmd hnot
  refine ⟨fun b => ?_, hsend, ?_, hsend _, hsend _, hsend _, fun a l => hsend _, fun k => hsend _, hsend _, ?_,
    fun hidle hinit => ?_, fun hdue hreset => ?_⟩
  · simp [execExchange, hnot]
  · simp [execFrame, hnot]
  · simp [execNegotiate, hnot]
  · simp [execPoll, hidle, hinit, hnot]
  · have hrow : transactionStep (takeInputs s) = .refused .linesNotReady := by
      have hdue' : exchangeDue (takeInputs s) = true := hdue
      have htest : (s.flags.initialised && s.lines.clk.latch) = false := hnot
      simp [transactionStep, hdue', htest]
    have hfr : s.framer.fr ≠ .idle := fun hidle => by simp [exchangeDue, hidle] at hdue
    have hbusy : atBoundary s = false := by simp [atBoundary, hfr]
    have hcycle : cycle s = .refused .linesNotReady := by simp [cycle, hbusy, hrow]
    rcases hr : resetAt s 0 with _ | _ | n
    · rw [step_eq_cycle hr, hcycle]
    · exact absurd hr hreset
    · rw [step_eq_land hr, hcycle]; rfl

end Sys2Proof.Machine
end

section
/-!
PROOFS. The small-step forms: the rows of R108 perform an EXCHANGE, and the rows of R123 perform a SEND.
-/

namespace Sys2Proof.Machine

/-! ### Rows one after another -/

theorem runPhases_add (m n : Nat) (s : State) : runPhases (m + n) s = runPhases n (runPhases m s) := by
  induction m generalizing s with
  | zero => rw [Nat.zero_add]; rfl
  | succ m ih => rw [Nat.succ_add]; exact ih (phaseStep s)

/-! ### The rows of an EXCHANGE (R108) -/

/-- `s` at the first row of bit cell `n`. -/
def atCell (n : Fin 8) (s : State) : State := { s with xchg := { s.xchg with bitn := n, bx := .drive } }

/-- The six rows of a bit cell before the last one. -/
theorem cell_rows {n : Fin 8} (s : State) (hn : n.val + 1 < 8) :
    runPhases 6 (atCell n s) = atCell ⟨n.val + 1, hn⟩ (bitCell s n) := by
  have hlast : ∀ u : State, u.xchg.bx = .holdHi → u.xchg.bitn = n →
      phaseStep u = setBx .drive { wait .half u with xchg := { u.xchg with bitn := ⟨n.val + 1, hn⟩ } } := by
    rintro u hbx rfl
    simp only [phaseStep, bitPhaseStep, hbx]
    exact dif_pos hn
  change phaseStep (runPhases 5 (atCell n s)) = _
  rw [hlast _ rfl rfl]
  rfl

theorem lastCell_rows (s : State) : runPhases 6 (atCell 7 s) = setBx .release (bitCell s 7) := rfl

/-- The cells from `n` on, in the order of the wire (R54). -/
theorem cells_rows (d : Nat) {n : Nat} (hn : n + d = 7) (s : State) :
    runPhases (6 + 6 * d) (atCell ⟨n, by omega⟩ s) = setBx .release ((bitOrder.drop n).foldl bitCell s) := by
  have hdrop : ∀ n : Fin 8, bitOrder.drop n = n :: bitOrder.drop (n + 1) := by decide
  induction d generalizing n s with
  | zero =>
    obtain rfl : n = 7 := by omega
    exact lastCell_rows s
  | succ d ih =>
    rw [hdrop ⟨n, by omega⟩, Nat.mul_succ, Nat.add_comm (6 * d), runPhases_add,
      cell_rows (n := ⟨n, by omega⟩) s (show n + 1 < 8 by omega)]
    exact ih (n := n + 1) (by omega) (bitCell s ⟨n, by omega⟩)

/-- `TX` loaded and `RX` cleared: the first assignments of EXCHANGE (R101). -/
def loadTx (b : Byte) (s : State) : State := { s with xchg := { s.xchg with tx := b, rx := 0x00 } }

/-- The rows of an EXCHANGE up to the one that waits for the settle delay and returns. -/
theorem settle_due (b : Byte) (s : State) :
    ∃ u, runPhases 49 (beginExchange b s) = setBx .settle u ∧ exchange b s = setBx .idle (wait .byte u) ∧
      u.framer = s.framer := by
  have hcells : runPhases 48 (beginExchange b s) = setBx .release (bitOrder.foldl bitCell (loadTx b s)) :=
    cells_rows 7 (n := 0) rfl (loadTx b s)
  refine ⟨wr .cmd true (bitOrder.foldl bitCell (loadTx b s)), ?_, rfl, ?_⟩
  · rw [show 49 = 48 + 1 from rfl, runPhases_add, hcells]
    rfl
  · exact List.foldlRecOn bitOrder bitCell (motive := fun u => u.framer = s.framer) rfl
      fun u hu n _ => by rw [bitCell_eq]; exact hu

/-- The rows of an EXCHANGE no transaction waits for. -/
theorem exchange_rows {s : State} (b : Byte) (hfr : s.framer.fr = .idle) :
    runPhases 50 (beginExchange b s) = exchange b s := by
  obtain ⟨u, hrows, hexchange, hframer⟩ := settle_due b s
  rw [show 50 = 49 + 1 from rfl, runPhases_add, hrows, hexchange]
  change (if (setBx .idle (wait .byte u)).framer.fr = .idle then _ else _) = _
  exact if_pos (by rw [setBx, wait_framer, hframer]; exact hfr)

/-- The rows of an EXCHANGE of the Framer: with the last one the Framer goes on (R123). -/
theorem exchange_rows_framer {s : State} (b : Byte) (hfr : s.framer.fr ≠ .idle) :
    runPhases 50 (beginExchange b s) = framerReturn (exchange b s) := by
  obtain ⟨u, hrows, hexchange, hframer⟩ := settle_due b s
  rw [show 50 = 49 + 1 from rfl, runPhases_add, hrows, hexchange]
  change (if (setBx .idle (wait .byte u)).framer.fr = .idle then _ else _) = _
  exact if_neg (by rw [setBx, wait_framer, hframer]; exact hfr)

/-- Settles O19. -/
theorem phaseRowsMakeExchange : Obligations.PhaseRowsMakeExchange := by
  intro s b hready hfr
  exact ⟨exchange b s, by rw [exec_exchange, execExchange_of_ready b hready], exchange_rows b hfr⟩

/-! ### The rows of a SEND (R123) -/

/-- `RECVSIZE <- n`. -/
def setRecv (n : Nat) (s : State) : State := { s with framer := { s.framer with recvSize := n } }

/-- The EXCHANGE and the store of a phase of the Framer are those of the transaction as a whole. -/
theorem storeBuf_exchange (p : FramerPhase) (i : Nat) (s : State) :
    storeBuf i (exchange (s.framer.wireByte i) (setFr p (setIdx i s))).xchg.rx
        (exchange (s.framer.wireByte i) (setFr p (setIdx i s))) = setFr p (exchangeAt s i) := by
  rw [exchangeAt_eq, exchange_eq]
  rfl

theorem exchange_framer (b : Byte) (s : State) : (exchange b s).framer = s.framer := by
  rw [exchange_eq]

theorem exchangeAt_keeps (s : State) (i : Nat) :
    (exchangeAt s i).xchg.bx = .idle ∧ (exchangeAt s i).framer.recvSize = s.framer.recvSize := by
  rw [exchangeAt_eq]
  exact ⟨rfl, rfl⟩

theorem foldl_exchangeAt_bx (l : List Nat) {s : State} (hbx : s.xchg.bx = .idle) :
    (l.foldl exchangeAt s).xchg.bx = .idle :=
  List.foldlRecOn l exchangeAt (motive := fun u => u.xchg.bx = .idle) hbx fun u _ i _ => (exchangeAt_keeps u i).1

theorem framerReturn_hdr0 {u : State} (hfr : u.framer.fr = .hdr0) :
    framerReturn u = setFr .hdr1 (storeBuf u.framer.idx u.xchg.rx u) := by
  simp only [framerReturn, storeBuf_framer, hfr]

theorem framerReturn_hdr1 {u : State} (hfr : u.framer.fr = .hdr1) :
    framerReturn u = setFr .len (storeBuf u.framer.idx u.xchg.rx u) := by
  simp only [framerReturn, storeBuf_framer, hfr]

theorem framerReturn_body {u : State} (hfr : u.framer.fr = .body) :
    framerReturn u =
      if u.framer.idx + 1 = u.framer.recvSize then setFr .deassert (storeBuf u.framer.idx u.xchg.rx u)
      else setIdx (u.framer.idx + 1) (storeBuf u.framer.idx u.xchg.rx u) := by
  simp only [framerReturn, storeBuf_framer, hfr]
  rfl

section
variable {s : State}

/-- A phase that exchanges the byte at wire index `i`: its call, the rows of the EXCHANGE, and the return. -/
theorem byte_rows {p : FramerPhase} {i : Nat} {u : State} (hp : p ≠ .idle)
    (hcall : phaseStep u = beginExchange (s.framer.wireByte i) (setFr p (setIdx i s))) :
    runPhases 51 u = framerReturn (exchange (s.framer.wireByte i) (setFr p (setIdx i s))) := by
  rw [show 51 = 1 + 50 from rfl, runPhases_add]
  change runPhases 50 (phaseStep u) = _
  rw [hcall, exchange_rows_framer (s := setFr p (setIdx i s)) _ hp]

theorem assert_row (hbx : s.xchg.bx = .idle) :
    runPhases 1 (setFr .assert s) = setFr .hdr0 (wait .att (wr .att false s)) := by
  simp only [runPhases, phaseStep, setFr, hbx, framerPhaseStep]
  rfl

theorem hdr0_rows (hbx : s.xchg.bx = .idle) : runPhases 51 (setFr .hdr0 s) = setFr .hdr1 (exchangeAt s 0) := by
  have hcall : phaseStep (setFr .hdr0 s) = beginExchange (s.framer.wireByte 0) (setFr .hdr0 (setIdx 0 s)) := by
    simp only [phaseStep, setFr, hbx, framerPhaseStep]
    rfl
  rw [byte_rows (by decide) hcall, framerReturn_hdr0 (by rw [exchange_framer]; rfl), exchange_framer]
  change setFr .hdr1 (storeBuf 0 _ _) = _
  rw [storeBuf_exchange]
  rfl

theorem hdr1_rows (hbx : s.xchg.bx = .idle) : runPhases 51 (setFr .hdr1 s) = setFr .len (exchangeAt s 1) := by
  have hcall : phaseStep (setFr .hdr1 s) = beginExchange (s.framer.wireByte 1) (setFr .hdr1 (setIdx 1 s)) := by
    simp only [phaseStep, setFr, hbx, framerPhaseStep]
    rfl
  rw [byte_rows (by decide) hcall, framerReturn_hdr1 (by rw [exchange_framer]; rfl), exchange_framer]
  change setFr .len (storeBuf 1 _ _) = _
  rw [storeBuf_exchange]
  rfl

/-- The row of the length formula (R115). -/
theorem len_row (hbx : s.xchg.bx = .idle) :
    runPhases 1 (setFr .len s) =
      setFr .body (setIdx 2 (setRecv (responseLength (bufAt s 1)) s)) := by
  simp only [runPhases, phaseStep, setFr, hbx, framerPhaseStep]
  rfl

theorem deassert_row (hbx : s.xchg.bx = .idle) :
    runPhases 1 (setFr .deassert s) = setFr .idle (wait .att (wr .att true s)) := by
  simp only [runPhases, phaseStep, setFr, hbx, framerPhaseStep]
  rfl

/-- A body byte: the Framer goes to the next index, or after the last to the deassertion (R117). -/
theorem bodyByte_rows (hbx : s.xchg.bx = .idle) (i : Nat) :
    runPhases 51 (setFr .body (setIdx i s)) =
      if i + 1 = s.framer.recvSize then setFr .deassert (exchangeAt s i)
      else setFr .body (setIdx (i + 1) (exchangeAt s i)) := by
  have hcall : phaseStep (setFr .body (setIdx i s)) =
      beginExchange (s.framer.wireByte i) (setFr .body (setIdx i s)) := by
    simp only [phaseStep, setFr, setIdx, hbx, framerPhaseStep]
    rfl
  rw [byte_rows (by decide) hcall, framerReturn_body (by rw [exchange_framer]; rfl), exchange_framer]
  change (if i + 1 = s.framer.recvSize then setFr .deassert (storeBuf i _ _) else setIdx (i + 1) (storeBuf i _ _)) = _
  rw [storeBuf_exchange]
  rfl

theorem body_rows (d : Nat) {i : Nat} (hbx : s.xchg.bx = .idle) (hlen : s.framer.recvSize = i + d + 1) :
    runPhases (51 + 51 * d) (setFr .body (setIdx i s)) =
      setFr .deassert ((List.range' i (d + 1)).foldl exchangeAt s) := by
  induction d generalizing i s with
  | zero => rw [bodyByte_rows hbx, if_pos (by omega)]; rfl
  | succ d ih =>
    obtain ⟨hbx', hlen'⟩ := exchangeAt_keeps s i
    have hbyte : runPhases 51 (setFr .body (setIdx i s)) = setFr .body (setIdx (i + 1) (exchangeAt s i)) := by
      rw [bodyByte_rows hbx, if_neg (by omega)]
    have hcount : 51 + 51 * (d + 1) = 51 + (51 + 51 * d) := by omega
    rw [hcount, runPhases_add 51, hbyte, List.range'_succ, List.foldl_cons]
    exact ih (s := exchangeAt s i) (i := i + 1) hbx' (by rw [hlen', hlen]; omega)

/-- All the rows of a transaction (R123). -/
theorem frame_rows (hbx : s.xchg.bx = .idle) :
    runPhases (51 * replyLength s.env.dataIn + 3) (setFr .assert s) = frame s := by
  have htwo := foldl_exchangeAt_done 1 (wait .att (wr .att false s))
  change ExchangesDone 2 _ (exchangeAt (exchangeAt (wait .att (wr .att false s)) 0) 1) at htwo
  have hmode : bufAt (exchangeAt (exchangeAt (wait .att (wr .att false s)) 0) 1) 1 = replyByte s.env.dataIn 1 :=
    bufAt_of_read (htwo.reads 1)
  obtain ⟨d, hd⟩ := Nat.exists_eq_add_of_le' (responseLength_ge (replyByte s.env.dataIn 1))
  have hframe : frame s = setFr .idle (wait .att (wr .att true ((List.range' 2 (d + 1)).foldl exchangeAt
      (setRecv (d + 3) (exchangeAt (exchangeAt (wait .att (wr .att false s)) 0) 1))))) := by
    unfold frame
    dsimp only
    rw [hmode, hd]
    rfl
  have hcount : 51 * replyLength s.env.dataIn + 3 = 1 + (51 + (51 + (1 + (51 + 51 * d + 1)))) := by
    rw [replyLength, hd]; omega
  rw [hcount, runPhases_add, assert_row hbx, runPhases_add, hdr0_rows (s := wait .att (wr .att false s)) hbx,
    runPhases_add, hdr1_rows (exchangeAt_keeps _ 0).1, runPhases_add, len_row htwo.bx, runPhases_add, hmode, hd, hframe]
  generalize exchangeAt (exchangeAt (wait .att (wr .att false s)) 0) 1 = u at htwo
  have hu : (setRecv (d + 3) u).xchg.bx = .idle := htwo.bx
  rw [body_rows d hu (show d + 3 = 2 + d + 1 by omega), deassert_row (foldl_exchangeAt_bx _ hu)]

end

/-- Settles O20. -/
theorem phaseRowsMakeSend : Obligations.PhaseRowsMakeSend := by
  intro s cmd hready hlegal hbx
  exact ⟨send cmd s, trySend_of_ready hready hlegal, frame_rows (s := latchCommand cmd s) hbx⟩

end Sys2Proof.Machine
end

section
/-!
PROOFS. DECODE by its mode byte (R145, R148), the round trip of the buttons (R164), and DECODE as a function of the
reply (R162).
-/

namespace Sys2Proof.Machine

/-! ### DECODE and the rows of the mode bytes -/

/-- The row of the mode byte in the buffer does what DECODE does (R145, R148). -/
theorem exec_decodeMode (s : State) : exec (decodeMode (modeByte s)) s = .next (decodeReply s) := by
  unfold decodeMode decodeReply
  cases hmode : modeOf (modeByte s) with
  | config =>
    have hbyte : modeByte s = 0xF3 := by
      unfold modeOf at hmode
      split_ifs at hmode with h41 h73 h79 hF3
      exact hF3
    rw [hbyte]
    rfl
  | _ => rfl

/-- Settles O24: each byte's row is the one the mode decoder selects. -/
theorem decodeSelectsLayout : Obligations.DecodeSelectsLayout := by
  intro s
  have hrow := exec_decodeMode s
  unfold modeByte at hrow
  refine ⟨decodeReply s, exec_decode s, fun h => ?_, fun h => ?_, fun h => ?_, fun h => ?_, fun h => ?_⟩
  · rw [h] at hrow; exact hrow
  · rw [h] at hrow; exact hrow
  · rw [h] at hrow; exact hrow
  · rw [h] at hrow; exact hrow
  · rw [decodeMode_of_other h] at hrow; exact hrow

/-! ### The buttons (R164) -/

theorem decodeReply_of_digital {s : State} (h : bufAt s 1 = 0x41) : decodeReply s = layoutDigital s := by
  rw [decodeReply, modeByte, h]
  rfl

theorem decodeReply_of_analog {s : State} (h : bufAt s 1 = 0x73) : decodeReply s = layoutAnalog s := by
  rw [decodeReply, modeByte, h]
  rfl

theorem decodeReply_of_pressure {s : State} (h : bufAt s 1 = 0x79) : decodeReply s = layoutPressure s := by
  rw [decodeReply, modeByte, h]
  rfl

/-- The field written as the complement of `P` decodes to `P` (R96, R149). -/
theorem pressedOfField_of_complement {s : State} {P : BitVec 16} (hlow : bufAt s 3 = (~~~P).extractLsb' 0 8)
    (hhigh : bufAt s 4 = (~~~P).extractLsb' 8 8) : pressedOfField (buttonField s) = P := by
  have hfield : buttonField s = ~~~P := by
    rw [buttonField, hlow, hhigh]
    exact BitVec.extractLsb'_append_extractLsb'_eq_extractLsb' rfl |>.trans (BitVec.extractLsb'_eq_self)
  rw [hfield, pressedOfField, BitVec.not_not]

/-- Settles O27: outside the image of `PRESS_MAP` the flags are those of the field; inside it each slot gives its
own. -/
theorem buttonsRoundTrip : Obligations.ButtonsRoundTrip := by
  intro s P hwf hlow hhigh
  have hfield := pressedOfField_of_complement hlow hhigh
  refine ⟨?plain, fun h79 => ?pressure⟩
  case plain =>
    rintro (h41 | h73)
    · exact ⟨_, by rw [exec_decode, decodeReply_of_digital h41], hfield⟩
    · exact ⟨_, by rw [exec_decode, decodeReply_of_analog h73], hfield⟩
  case pressure =>
    have houtside : ∀ i : Fin 16, (∀ k : Fin 12, s.params.pressMap[k] ≠ i) →
        (layoutPressure s).out.pressed.getLsbD i = P.getLsbD i := fun i hi => by
      rw [layoutPressure_out, pressedOfPressure_outside _ _ _ i.isLt fun k hk => hi k (Fin.ext hk), hfield]
    refine ⟨_, by rw [exec_decode, decodeReply_of_pressure h79], houtside, fun hslots => ?_⟩
    refine BitVec.eq_of_getLsbD_eq fun i hi => ?_
    by_cases himage : ∃ k : Fin 12, s.params.pressMap[k] = ⟨i, hi⟩
    · obtain ⟨k, hk⟩ := himage
      have hslot := hslots k
      have hown := pressedOfPressure_slot hwf (buttonField s) (intensityBytes s) k
      rw [intensityBytes_getElem, slotPressed, hslot, hk] at hown
      exact hown
    · exact houtside ⟨i, hi⟩ fun k hk => himage ⟨k, hk⟩

/-! ### DECODE as a function of the reply (R162) -/

/-- Settles O28: where DECODE does not raise it is a layout, and each layout reads `BUF[3 .. 20]` and the parameters. -/
theorem decodeIsFunctionOfReply : Obligations.DecodeIsFunctionOfReply := by
  intro s u hparams hmode hbytes hlisted
  have hfield : buttonField s = buttonField u := by
    simp only [buttonField, hbytes 3 (by decide) (by decide), hbytes 4 (by decide) (by decide)]
  have haxis : axisBytes s = axisBytes u := Vector.ext fun j hj =>
    (axisBytes_getElem s ⟨j, hj⟩).trans
      ((hbytes (5 + j) (by omega) (by omega)).trans (axisBytes_getElem u ⟨j, hj⟩).symm)
  have hint : intensityBytes s = intensityBytes u := Vector.ext fun j hj =>
    (intensityBytes_getElem s ⟨j, hj⟩).trans
      ((hbytes (9 + j) (by omega) (by omega)).trans (intensityBytes_getElem u ⟨j, hj⟩).symm)
  have hnoRaise : (s.params.strictMode && unrecognised (modeByte s)) = false := by
    rw [modeByte]
    obtain hlenient | hmode | hmode | hmode := hlisted
    · rw [hlenient]; rfl
    · rw [hmode]; exact Bool.and_false _
    · rw [hmode]; exact Bool.and_false _
    · rw [hmode]; exact Bool.and_false _
  have hframe :
      (decodeReply s).buf = s.buf ∧ (decodeReply s).cache = s.cache ∧ (decodeReply s).trace = s.trace := by
    rw [decodeReply_of_listed hnoRaise]
    exact ⟨rfl, rfl, rfl⟩
  refine ⟨decodeReply s, decodeReply u, exec_decode s, exec_decode u, ?_⟩
  have hmode' : modeByte u = modeByte s := hmode.symm
  rw [decodeReply_out s, decodeReply_out u, hmode', ← hparams, if_neg (Bool.eq_false_iff.mp hnoRaise),
    if_neg (Bool.eq_false_iff.mp hnoRaise)]
  split_ifs
  · have hout : (layoutPressure s).out = (layoutPressure u).out := by
      rw [layoutPressure_out, layoutPressure_out, hfield, hint, haxis, hparams]
    rw [hout]
    exact ⟨rfl, rfl, rfl, fun _ => rfl, fun _ => rfl, hframe⟩
  · exact ⟨congrArg pressedOfField hfield, rfl, rfl, by simp, fun _ => haxis, hframe⟩
  · exact ⟨congrArg pressedOfField hfield, rfl, rfl, by simp, by simp, hframe⟩

end Sys2Proof.Machine
end

section
/-!
PROOFS. What a step of a sound engine can be (`Sound.cycle_cases`), that every step keeps a sound state sound, and that
none faults or is refused.
-/

namespace Sys2Proof.Machine

/-! ### One wire command of the handshake -/

/-- The bytes of the wire command at the present position of the handshake; none where `NEG` names no command. -/
def handshakeCommand (s : State) : List Byte :=
  match s.seq.neg with
  | .idle => []
  | .confirmed => []
  | .enteringConfig => cfgEnterBytes
  | .settingMode =>
    match s.seq.subseq with
    | .mode => setModeBytes (analogFlag s.params s.seq.target) (lockFlag s.params s.seq.lock)
    | .en => pressEnBytes s.params s.seq.slot
    | .cfg => pressCfgBytes s.params
  | .exitingConfig => cfgExitBytes
  | .resyncing => pollBytes s.params

/-- One step of a SET_MODE at work but for the inputs that pass: its wire command, and the transition after it. -/
def handshakeStep (s : State) : State := negotiationAdvance (send (handshakeCommand s) s)

/-- At a position that names a command, that command is the SEND of its bytes, and it is legal (R7, R81). -/
theorem negotiationInstr_sends {s : State} (hwf : s.params.Wf) (hidle : s.seq.neg ≠ .idle)
    (hconf : s.seq.neg ≠ .confirmed) :
    legalCommand s.params (handshakeCommand s) = true ∧
      ∃ i, negotiationInstr s = some i ∧ exec i (takeInputs s) = trySend (handshakeCommand s) (takeInputs s) := by
  unfold handshakeCommand negotiationInstr
  cases hneg : s.seq.neg with
  | idle => exact absurd hneg hidle
  | confirmed => exact absurd hneg hconf
  | enteringConfig => exact ⟨cfgEnterBytes_legal _, _, rfl, rfl⟩
  | settingMode =>
    cases s.seq.subseq with
    | mode => exact ⟨setModeBytes_legal _ _ _, _, rfl, rfl⟩
    | en => exact ⟨hwf.pressEnLegal _, _, rfl, rfl⟩
    | cfg => exact ⟨hwf.pressCfgLegal, _, rfl, rfl⟩
  | exitingConfig => exact ⟨cfgExitBytes_legal _, _, rfl, rfl⟩
  | resyncing => exact ⟨pollBytes_legal _, _, rfl, rfl⟩

/-! ### The retry cap -/

theorem capReached_of_uncapped {s : State} (h : s.params.retryCap = none) : capReached s = false := by
  simp only [capReached, h]

theorem capReached_iff {s : State} {k : Nat} (h : s.params.retryCap = some k) :
    capReached s = true ↔ k ≤ s.seq.attempt := by
  simp only [capReached, h, decide_eq_true_eq]

/-- The state an accepted SET_MODE leaves (R128, R139, R183). -/
theorem startSetMode_eq (target : Target) (lock : Bool) (s : State) :
    startSetMode target lock s =
      { s with
        flags := { s.flags with busy := true, err := .noError }
        seq :=
          { s.seq with
            op := .setMode
            neg := .enteringConfig
            target := target
            lock := lock
            attempt := if s.params.retryCap.isSome then 1 else s.seq.attempt } } := by
  unfold startSetMode clearAttempts startAttempt
  cases hcap : s.params.retryCap <;> simp [hcap, latchTarget, accept]

@[simp] theorem exec_setMode (target : Target) (lock : Bool) (s : State) :
    exec (.setMode target lock) s = execSetMode target lock s := rfl

theorem execSetMode_of_idle {s : State} (target : Target) (lock : Bool) (hidle : s.flags.busy = false)
    (hinit : s.flags.initialised = true) : execSetMode target lock s = .next (startSetMode target lock s) := by
  simp [execSetMode, hidle, hinit]

/-! ### A cycle at a boundary -/

section
variable {s u : State} {i : Instr}

theorem cycle_of_busy (hb : atBoundary s = true) (hbusy : s.flags.busy = true) (hfetch : fetch s = some i)
    (hexec : exec i (takeInputs s) = .next u) : cycle s = .next (advance u) := by
  simp [cycle, hb, hfetch, hbusy, hexec, mapNext]

theorem cycle_of_idle (hb : atBoundary s = true) (hidle : s.flags.busy = false) (hfetch : fetch s = some i) :
    cycle s = exec i (takeInputs s) := by
  simp [cycle, hb, hfetch, hidle]

theorem cycle_of_silent (hb : atBoundary s = true) (hidle : s.flags.busy = false) (hfetch : fetch s = none) :
    cycle s = .next (takeInputs s) := by
  simp [cycle, hb, hfetch, hidle, idleStep]

/-- An idle engine takes the word the host presents (R75, R183). -/
theorem fetch_of_presented {w : Byte} (hidle : s.flags.busy = false) (hw : presented s = some w) :
    fetch s = some (decodeHost w) := by
  simp [fetch, hidle, hw]

/-- Before INIT a POLL and a SET_MODE are ignored (R181), and so is a reserved word at any time (R76). -/
theorem exec_of_uninitialised {w : Byte} (hinit : s.flags.initialised = false) (hopc : w.extractLsb' 0 2 ≠ 0) :
    exec (decodeHost w) s = .next s := by
  obtain hw | ⟨target, lock, hw⟩ | ⟨v, hw⟩ := decodeHost_of_opc_ne_zero hopc <;> rw [hw]
  · simp [execPoll, hinit]
  · simp [execSetMode, hinit]
  · rfl

end

end Sys2Proof.Machine

namespace Sys2Proof

open Sys2Proof.Machine

variable {s t u : State}

/-! ### What a cycle of a sound engine does -/

theorem Sound.takeInputs (h : Sound s) : Sound (takeInputs s) := h.withEnv _ s.trace

theorem Sound.notBusy_iff (h : Sound s) : s.flags.busy = false ↔ s.seq.op = .none := by
  rw [← Bool.not_eq_true, h.busyOp, not_not]

theorem Sound.busy_of_op (h : Sound s) {op : Op} (hop : s.seq.op = op) (hne : op ≠ .none) : s.flags.busy = true :=
  h.busyOp.mpr (hop ▸ hne)

/-- A step of INIT's burst: one poll, and the count (R165). -/
theorem Sound.cycle_of_init (h : Sound s) (hop : s.seq.op = .init) :
    cycle s = .next (burstAdvance (Machine.send (pollBytes s.params) (Machine.takeInputs s))) := by
  have hbusy := h.busy_of_op hop (by decide)
  have hlegal := pollBytes_legal s.params
  have hexec := trySend_of_ready (s := Machine.takeInputs s) (h.takeInputs.ready (h.busyReady hbusy)) hlegal
  rw [cycle_of_busy h.boundary hbusy (i := .pollCmd) (by simp [fetch, hbusy, hop]) hexec, advance,
    (send_done _ (Machine.takeInputs s) hlegal).unchanged.1, takeInputs_seq, hop]

/-- A step of a POLL whose transaction is done: DECODE and the end (R169). -/
theorem Sound.cycle_of_poll (h : Sound s) (hop : s.seq.op = .poll) :
    cycle s = .next (advance (decodeReply (Machine.takeInputs s))) := by
  have hbusy := h.busy_of_op hop (by decide)
  exact cycle_of_busy h.boundary hbusy (i := decodeMode (modeByte s)) (by simp [fetch, hbusy, hop])
    (exec_decodeMode (Machine.takeInputs s))

theorem Sound.handshakeCommand_legal (h : Sound s) (hop : s.seq.op = .setMode) :
    legalCommand s.params (handshakeCommand s) = true :=
  (negotiationInstr_sends h.params (fun hn => h.negOp.mp hn hop) h.notConfirmed).1

/-- A step of a SET_MODE at work (R139). -/
theorem Sound.cycle_of_setMode (h : Sound s) (hop : s.seq.op = .setMode) :
    cycle s = .next (handshakeStep (Machine.takeInputs s)) := by
  have hbusy := h.busy_of_op hop (by decide)
  obtain ⟨hlegal, i, hi, hsend⟩ :=
    negotiationInstr_sends h.params (fun hn => h.negOp.mp hn hop) h.notConfirmed
  have hexec := hsend.trans
    (trySend_of_ready (s := Machine.takeInputs s) (h.takeInputs.ready (h.busyReady hbusy)) hlegal)
  rw [cycle_of_busy h.boundary hbusy (by simp [fetch, hbusy, hop, hi]) hexec, advance,
    (send_done _ (Machine.takeInputs s) hlegal).unchanged.1, takeInputs_seq, hop]
  rfl

/-- What an idle sound engine does with a host word: INIT, POLL or SET_MODE, or nothing at all (R75, R76, R181). -/
theorem Sound.exec_host (h : Sound s) (hidle : s.flags.busy = false) (w : Byte) :
    (decodeHost w = .init ∧ exec (decodeHost w) s = .next (runInit s)) ∨
      (decodeHost w = .poll ∧ s.flags.initialised = true ∧ exec (decodeHost w) s = .next (runPoll s)) ∨
      (∃ target lock, s.flags.initialised = true ∧ exec (decodeHost w) s = .next (startSetMode target lock s)) ∨
      exec (decodeHost w) s = .next s := by
  by_cases hopc : w.extractLsb' 0 2 = 0
  · by_cases hhigh : w.extractLsb' 5 3 = 0
    · have hw : decodeHost w = .init := by simp [decodeHost, hopc, hhigh]
      exact .inl ⟨hw, by rw [hw]; simp [execInit, hidle]⟩
    · exact .inr (.inr (.inr (by rw [decodeHost, if_pos hhigh]; rfl)))
  cases hinit : s.flags.initialised with
  | false => exact .inr (.inr (.inr (exec_of_uninitialised hinit hopc)))
  | true =>
    obtain hw | ⟨target, lock, hw⟩ | ⟨v, hw⟩ := decodeHost_of_opc_ne_zero hopc
    · exact .inr (.inl ⟨hw, rfl, by rw [hw]; simp [execPoll, hinit, hidle, h.ready hinit]⟩)
    · exact .inr (.inr (.inl ⟨target, lock, rfl, by rw [hw]; exact execSetMode_of_idle target lock hidle hinit⟩))
    · exact .inr (.inr (.inr (by rw [hw]; rfl)))

/-- Everything a cycle of a sound engine can be. -/
theorem Sound.cycle_cases (h : Sound s) :
    (s.flags.busy = false ∧ cycle s = .next (Machine.takeInputs s)) ∨
      (s.flags.busy = false ∧ fetch s = some .init ∧ cycle s = .next (runInit (Machine.takeInputs s))) ∨
      (s.flags.busy = false ∧ s.flags.initialised = true ∧ fetch s = some .poll ∧
        cycle s = .next (runPoll (Machine.takeInputs s))) ∨
      (∃ target lock, s.flags.busy = false ∧ s.flags.initialised = true ∧
        cycle s = .next (startSetMode target lock (Machine.takeInputs s))) ∨
      (s.seq.op = .init ∧
        cycle s = .next (burstAdvance (Machine.send (pollBytes s.params) (Machine.takeInputs s)))) ∨
      (s.seq.op = .poll ∧ cycle s = .next (advance (decodeReply (Machine.takeInputs s)))) ∨
      (s.seq.op = .setMode ∧ cycle s = .next (handshakeStep (Machine.takeInputs s))) := by
  cases hop : s.seq.op with
  | none =>
    have hidle := h.notBusy_iff.mpr hop
    cases hw : presented s with
    | none => exact .inl ⟨hidle, cycle_of_silent h.boundary hidle (by simp [fetch, hidle, hw])⟩
    | some w =>
      have hfetch := fetch_of_presented hidle hw
      have hcycle := cycle_of_idle h.boundary hidle hfetch
      obtain ⟨hd, he⟩ | ⟨hd, hinit, he⟩ | ⟨target, lock, hinit, he⟩ | he := h.takeInputs.exec_host hidle w
      · exact .inr (.inl ⟨hidle, hd ▸ hfetch, hcycle.trans he⟩)
      · exact .inr (.inr (.inl ⟨hidle, hinit, hd ▸ hfetch, hcycle.trans he⟩))
      · exact .inr (.inr (.inr (.inl ⟨target, lock, hidle, hinit, hcycle.trans he⟩)))
      · exact .inl ⟨hidle, hcycle.trans he⟩
  | init => exact .inr (.inr (.inr (.inr (.inl ⟨rfl, h.cycle_of_init hop⟩))))
  | poll => exact .inr (.inr (.inr (.inr (.inr (.inl ⟨rfl, h.cycle_of_poll hop⟩)))))
  | setMode => exact .inr (.inr (.inr (.inr (.inr (.inr ⟨rfl, h.cycle_of_setMode hop⟩)))))

/-! ### Moves that keep a sound state sound -/

/-- The operation over: `OP` is `NONE`, `NEG` is `Idle`, and what the flags and the sequencer otherwise hold is in
range. -/
theorem Sound.rest (h : Sound s) (q : SequencerRegs) (f : Flags) (hop : q.op = .none) (hneg : q.neg = .idle)
    (hsync : q.syncCtr ≤ max s.params.resyncCount s.params.initSyncCount) (hattempt : q.attempt = s.seq.attempt)
    (hbusy : f.busy = false) (hinit : f.initialised = s.flags.initialised)
    (htimeout : f.err = .negotiationTimeout → s.params.retryCap ≠ none)
    (hmode : f.err = .unrecognizedMode → s.params.strictMode = true) : Sound { s with seq := q, flags := f } :=
  { h with
    busyOp := by simp [hop, hbusy]
    negOp := by simp [hop, hneg]
    notConfirmed := by simp [hneg]
    busyReady := by simp [hbusy]
    linesSet := fun hi => h.linesSet (hinit ▸ hi)
    linesUnset := fun hi => h.linesUnset (hinit ▸ hi)
    syncRange := hsync
    syncBurst := by simp [hop]
    syncResync := by simp [hneg]
    attemptNone := fun hn => hattempt.trans (h.attemptNone hn)
    attemptCap := fun k hk => hattempt.trans_le (h.attemptCap k hk)
    errBusy := by simp [hbusy]
    errTimeout := htimeout
    errMode := hmode
    cacheReady := fun hc => hinit.trans (h.cacheReady hc) }

theorem Sound.endOp (h : Sound s) : Sound (endOp s) :=
  h.rest _ _ rfl rfl h.syncRange rfl rfl rfl h.errTimeout h.errMode

/-- The end of an operation whose burst has counted to 0. -/
theorem Sound.endSync (h : Sound s) : Sound (Machine.endOp (setSync 0 s)) :=
  h.rest _ _ rfl rfl (Nat.zero_le _) rfl rfl rfl h.errTimeout h.errMode

/-- A raise is one of its hardened variant (R185). -/
theorem Sound.raiseStrict (h : Sound s) (hstrict : s.params.strictMode = true) :
    Sound (raiseError .unrecognizedMode s) :=
  h.rest _ _ rfl rfl h.syncRange rfl rfl rfl (fun he => nomatch he) fun _ => hstrict

theorem Sound.withOut (h : Sound s) (o : Outputs) (ho : o.intValid = true → o.axisFresh = true) :
    Sound { s with out := o } :=
  { h with intensityAxes := ho }

theorem Sound.setChanged (h : Sound s) (b : Bool) : Sound (setChanged b s) :=
  { h with }

theorem Sound.refreshCache (h : Sound s) (hinit : s.flags.initialised = true) : Sound (refreshCache s) :=
  { h with cacheReady := fun _ => hinit }

/-- DECODE writes the outputs of a layout, or raises in strict mode. -/
theorem Sound.decodeReply (h : Sound s) : Sound (decodeReply s) := by
  obtain ⟨-, hd⟩ | ⟨-, hd⟩ | ⟨-, -, -, hd⟩ | ⟨-, -, hs, hd⟩ := decodeReply_cases s <;> rw [hd]
  · exact h.withOut _ fun _ => rfl
  · exact h.withOut _ fun _ => rfl
  · exact h.withOut _ fun hi => nomatch hi
  · exact h.raiseStrict (Bool.and_eq_true_iff.mp hs).1

theorem Sound.finishPoll (h : Sound s) : Sound (finishPoll s) := by
  unfold Machine.finishPoll
  split
  · exact (h.setChanged true).endOp
  · exact h

/-! ### INIT and its burst -/

/-- The count of a burst moves, with polls still to be sent. -/
theorem Sound.setSync (h : Sound s) {n : Nat} (hpos : 1 ≤ n)
    (hle : n ≤ max s.params.resyncCount s.params.initSyncCount) : Sound (setSync n s) :=
  h.move _ rfl Iff.rfl h.notConfirmed hle (fun _ => hpos) (fun _ => hpos) h.attemptNone h.attemptCap

/-- The burst as a whole, and the end of INIT (R165). -/
theorem Sound.syncBurst_end (n : Nat) (h : Sound s) (hinit : s.flags.initialised = true)
    (hle : n ≤ max s.params.resyncCount s.params.initSyncCount) : Sound (Machine.endOp (Machine.syncBurst n s)) := by
  induction n generalizing s with
  | zero => exact h.endSync
  | succ n ih =>
    have hlegal := pollBytes_legal s.params
    have hsync : Sound (Machine.setSync (n + 1) s) := h.setSync (Nat.succ_pos n) hle
    obtain ⟨-, -, -, hflags, hparams, -⟩ := (send_done _ (Machine.setSync (n + 1) s) hlegal).unchanged
    refine ih (hsync.send hinit hlegal) (hflags ▸ hinit) ?_
    rw [hparams]
    exact Nat.le_of_succ_le hle

/-- INIT accepted, the lines configured and the flags written (R165, R168). -/
theorem Sound.initFlags_cfg_accept (h : Sound s) (hidle : s.flags.busy = false) {n : Nat} (hpos : 1 ≤ n)
    (hle : n ≤ max s.params.resyncCount s.params.initSyncCount) :
    Sound (Machine.setSync n (initFlags (cfg (accept .init s)))) :=
  { h with
    busyOp := by simp
    negOp := by simpa using h.negOp.mpr (by simp [h.notBusy_iff.mp hidle])
    busyReady := fun _ => rfl
    linesSet := fun _ => rfl
    linesUnset := fun hi => nomatch hi
    syncRange := hle
    syncBurst := fun _ => hpos
    syncResync := fun _ => hpos
    errBusy := fun _ => rfl
    errTimeout := fun he => nomatch he
    errMode := fun he => nomatch he
    intensityAxes := fun hi => nomatch hi
    cacheReady := fun _ => rfl }

theorem Sound.runInit (h : Sound s) (hidle : s.flags.busy = false) : Sound (runInit s) := by
  obtain ⟨n, hn⟩ := Nat.exists_eq_add_of_le' h.params.initSyncPositive
  have hle : n + 1 ≤ max s.params.resyncCount s.params.initSyncCount := hn ▸ le_max_right _ _
  have hburst := Sound.syncBurst_end (n + 1) (h.initFlags_cfg_accept hidle (Nat.succ_pos n) hle) rfl hle
  change Sound (Machine.endOp (Machine.syncBurst s.params.initSyncCount (initFlags (cfg (accept .init s)))))
  rw [hn]
  exact hburst

/-- The poll of a burst just sent: one more poll to be sent, or the end (R165, R167). -/
theorem Sound.burstAdvance (h : Sound s) : Sound (burstAdvance s) := by
  unfold Machine.burstAdvance
  dsimp only
  split
  · rename_i hzero
    change s.seq.syncCtr - 1 = 0 at hzero
    rw [hzero]
    exact h.endSync
  · rename_i hpos
    change s.seq.syncCtr - 1 ≠ 0 at hpos
    exact h.setSync (Nat.one_le_iff_ne_zero.mpr hpos) (le_trans (Nat.sub_le _ _) h.syncRange)

/-! ### POLL -/

theorem Sound.accept_poll (h : Sound s) (hidle : s.flags.busy = false) (hinit : s.flags.initialised = true) :
    Sound (accept .poll s) :=
  { h with
    busyOp := by simp
    negOp := by simpa using h.negOp.mpr (by simp [h.notBusy_iff.mp hidle])
    busyReady := fun _ => hinit
    syncBurst := fun ho => nomatch ho
    errBusy := fun _ => rfl
    errTimeout := fun he => nomatch he
    errMode := fun he => nomatch he }

theorem Sound.compareReply (h : Sound s) (hinit : s.flags.initialised = true) : Sound (compareReply s) := by
  have hcache := h.refreshCache hinit
  obtain ⟨hstrict, hc⟩ | ⟨-, -, hc⟩ | ⟨-, -, hc⟩ := compareReply_cases s <;> rw [hc]
  · exact hcache.raiseStrict (Bool.and_eq_true_iff.mp hstrict).1
  · exact (hcache.setChanged false).endOp
  · exact hcache

theorem Sound.runPoll (h : Sound s) (hidle : s.flags.busy = false) (hinit : s.flags.initialised = true) :
    Sound (runPoll s) := by
  have hlegal := pollBytes_legal s.params
  have hsend : Sound (Machine.send (pollBytes s.params) (accept .poll s)) :=
    (h.accept_poll hidle hinit).send hinit hlegal
  have hflags := send_flags (pollBytes s.params) (accept .poll s)
  have hcompare := hsend.compareReply (by rw [hflags]; exact hinit)
  rw [runPoll_eq, concludePoll]
  split
  · exact hcompare.decodeReply.finishPoll
  · exact hcompare

/-! ### SET_MODE -/

/-- SET_MODE accepted: the first attempt of at most `RETRY_CAP` (R7, R183). -/
theorem Sound.startSetMode (h : Sound s) (target : Target) (lock : Bool) (hinit : s.flags.initialised = true) :
    Sound (startSetMode target lock s) := by
  rw [startSetMode_eq]
  exact { h with
    busyOp := by simp
    negOp := by simp
    notConfirmed := by simp
    busyReady := fun _ => hinit
    syncBurst := by simp
    syncResync := by simp
    attemptNone := fun (hnone : s.params.retryCap = none) => by simpa [hnone] using h.attemptNone hnone
    attemptCap := fun k (hk : s.params.retryCap = some k) => by simpa [hk] using h.params.capPositive k hk
    errBusy := fun _ => rfl
    errTimeout := by simp
    errMode := by simp }

/-- The foot of the loop, with the polls counted to 0: the end, the timeout, or an attempt below the cap (R135 to
R137). -/
theorem Sound.confirmCheck (h : Sound s) (hop : s.seq.op = .setMode) : Sound (confirmCheck (Machine.setSync 0 s)) := by
  obtain ⟨-, hc⟩ | ⟨-, hcap, hc⟩ | ⟨-, hcap, hc⟩ := confirmCheck_cases (Machine.setSync 0 s) <;> rw [hc]
  · exact h.endSync
  · refine h.rest _ _ rfl rfl (Nat.zero_le _) rfl rfl rfl (fun _ hnone => ?_) fun he => nomatch he
    simp [capReached_of_uncapped (s := Machine.setSync 0 s) hnone] at hcap
  · refine h.move _ rfl (by simp [h.negOp, hop]) (by simp) (Nat.zero_le _) (by simp [hop]) (by simp)
      (fun hnone => ?_) fun k (hk : s.params.retryCap = some k) => ?_
    · simpa [hnone] using h.attemptNone hnone
    · have hbelow : s.seq.attempt < k :=
        Nat.lt_of_not_le (mt (capReached_iff (s := Machine.setSync 0 s) hk).mpr (Bool.eq_false_iff.mp hcap))
      simpa [hk] using hbelow

/-- A move between positions of the handshake that send commands. -/
theorem Sound.moveNeg (h : Sound s) (hop : s.seq.op = .setMode) (q : SequencerRegs) (ho : q.op = s.seq.op)
    (ha : q.attempt = s.seq.attempt) (hi : q.neg ≠ .idle) (hc : q.neg ≠ .confirmed)
    (hs : q.syncCtr ≤ max s.params.resyncCount s.params.initSyncCount) (hr : q.neg = .resyncing → 1 ≤ q.syncCtr) :
    Sound { s with seq := q } :=
  h.move q ho (by simp [hi, h.negOp, hop]) hc hs (by simp [ho, hop]) hr (ha ▸ h.attemptNone) (ha ▸ h.attemptCap)

theorem Sound.negotiationAdvance (h : Sound s) (hop : s.seq.op = .setMode) : Sound (negotiationAdvance s) := by
  have hs := h.syncRange
  unfold Machine.negotiationAdvance
  split
  · exact h
  · exact absurd ‹_› h.notConfirmed
  · exact h.moveNeg hop _ rfl rfl (by simp) (by simp) hs (by simp)
  · rename_i hneg
    have hstay : s.seq.neg ≠ .idle ∧ s.seq.neg ≠ .confirmed ∧ s.seq.neg ≠ .resyncing := by simp [hneg]
    obtain ⟨hidle, hconf, hresync⟩ := hstay
    split
    · split
      · exact h.moveNeg hop _ rfl rfl hidle hconf hs fun hr => absurd hr hresync
      · exact h.moveNeg hop _ rfl rfl (by simp) (by simp) hs (by simp)
    · exact h.moveNeg hop _ rfl rfl hidle hconf hs fun hr => absurd hr hresync
    · split
      · exact h.moveNeg hop _ rfl rfl hidle hconf hs fun hr => absurd hr hresync
      · exact h.moveNeg hop _ rfl rfl (by simp) (by simp) hs (by simp)
  · exact h.moveNeg hop _ rfl rfl (by simp) (by simp) (le_max_left _ _) fun _ => h.params.resyncPositive
  · dsimp only
    split
    · rename_i hzero
      change s.seq.syncCtr - 1 = 0 at hzero
      rw [hzero]
      exact h.confirmCheck hop
    · rename_i hpos
      change s.seq.syncCtr - 1 ≠ 0 at hpos
      exact h.setSync (Nat.one_le_iff_ne_zero.mpr hpos) (le_trans (Nat.sub_le _ _) hs)

/-- Every move of the sequencer keeps a sound state sound. -/
theorem Sound.advance (h : Sound s) : Sound (advance s) := by
  unfold Machine.advance
  split
  · exact h
  · exact h.burstAdvance
  · exact h.finishPoll
  · exact h.negotiationAdvance ‹_›

theorem Sound.handshakeStep (h : Sound s) (hop : s.seq.op = .setMode) : Sound (handshakeStep s) := by
  have hlegal := h.handshakeCommand_legal hop
  have hseq := (send_done _ s hlegal).unchanged.1
  exact (h.send (h.busyReady (h.busy_of_op hop (by decide))) hlegal).negotiationAdvance (hseq ▸ hop)

/-! ### Reset -/

theorem resetWith_sound {p : Params} (hp : p.Wf) : Sound (State.resetWith p) := by
  have hcap := p.one_le_cmdCap
  constructor
  case params => exact hp
  all_goals simp [State.resetWith, Memory.wf, hcap]

/-- Whatever the inputs, the trace and the count of resets. -/
theorem hardReset_sound (hp : s.params.Wf) : Sound (hardReset s) :=
  { resetWith_sound hp with }

/-! ### Steps -/

/-- A cycle of a sound engine answers a sound state. -/
theorem Sound.cycle (h : Sound s) : ∃ t, cycle s = .next t ∧ Sound t := by
  have ht := h.takeInputs
  obtain ⟨-, hc⟩ | ⟨hidle, -, hc⟩ | ⟨hidle, hinit, -, hc⟩ | ⟨target, lock, -, hinit, hc⟩ | ⟨hop, hc⟩ | ⟨hop, hc⟩ |
    ⟨hop, hc⟩ := h.cycle_cases <;> refine ⟨_, hc, ?_⟩
  · exact ht
  · exact ht.runInit hidle
  · exact ht.runPoll hidle hinit
  · exact ht.startSetMode target lock hinit
  · exact (ht.send (h.busyReady (h.busy_of_op hop (by decide))) (pollBytes_legal s.params)).burstAdvance
  · exact ht.decodeReply.advance
  · exact ht.handshakeStep hop

/-- Settles O46: a cycle keeps a sound state sound, and where a reset lands the reset state is sound for any
parameters that meet R7. -/
theorem stepKeepsSound : Obligations.StepKeepsSound := by
  intro s t h hstep
  obtain ⟨u, hu, hsound⟩ := h.cycle
  obtain ⟨-, hc⟩ | ⟨-, rfl⟩ | ⟨n, v, -, hc, rfl⟩ := step_cases hstep
  · obtain rfl : u = t := by simpa [hu] using hc
    exact hsound
  · exact hardReset_sound h.params
  · obtain rfl : u = v := by simpa [hu] using hc
    exact hardReset_sound hsound.params

/-- Settles O47: a cycle of a sound engine answers a next state, and a reset lands on any. -/
theorem soundStatesAreSafe : Obligations.SoundStatesAreSafe := by
  intro s h
  obtain ⟨u, hu, -⟩ := h.cycle
  unfold Safe
  rcases hr : resetAt s 0 with _ | _ | n
  · exact ⟨u, (step_eq_cycle hr).trans hu⟩
  · exact ⟨_, step_eq_reset hr⟩
  · exact ⟨landReset (n + 1) s u, by rw [step_eq_land hr, hu]; rfl⟩

/-- The built-in parameters meet R7: each open command list has a first byte and is cut to `CMD_CAP` (log 4). -/
theorem Config.params_wf : Config.params.Wf where
  flagsDiffer := by decide
  locksDiffer := by decide
  pressEnLegal k := by simp [legalCommand, Config.params, Config.pressEnCommand, Config.cmdCap]
  pressCfgLegal := by simp [legalCommand, Config.params, Config.pressCfgCommand, Config.cmdCap]
  resyncPositive := Nat.succ_pos _
  initSyncPositive := Nat.succ_pos _
  capPositive k hk := nomatch hk
  mapInjective := by decide

/-- Settles O34: the attempt is cleared and then counted, where there is a cap. -/
theorem setModeAccepted : Obligations.SetModeAccepted := by
  intro s target lock hidle hinit
  rw [exec_setMode, execSetMode_of_idle target lock hidle hinit, startSetMode_eq]

/-- Settles O45: the reset state is sound for any parameters that meet R7, and the built-in ones do. -/
theorem resetIsSound : Obligations.ResetIsSound := resetWith_sound Config.params_wf

/-- Settles O44: each value is written out in the reset state. -/
theorem resetValues : Obligations.ResetValues :=
  ⟨rfl, rfl, rfl, rfl, rfl, rfl, rfl, rfl, rfl, rfl, rfl, rfl, fun _ => rfl, rfl, rfl, rfl, rfl, rfl, rfl, rfl⟩

end Sys2Proof
end

section
/-!
PROOFS. The moves of the handshake, one equation per row of its transition table (R139), and unbounded retry (R136,
R221).
-/

namespace Sys2Proof.Machine

/-! ### What a transaction leaves unchanged -/

section
variable (s : State) (cmd : List Byte)

/-- Whatever command is latched. -/
theorem frame_unchanged : (frame s).seq = s.seq ∧ (frame s).out = s.out ∧ (frame s).cache = s.cache ∧
    (frame s).flags = s.flags ∧ (frame s).params = s.params ∧ (frame s).powerOns = s.powerOns := by
  obtain ⟨m, hm⟩ : ∃ m, replyLength s.env.dataIn = m + 1 :=
    Nat.exists_eq_add_of_le' (le_trans (by decide) (responseLength_ge _))
  rw [frame_eq, hm]
  exact (foldl_exchangeAt_done m (wait .att (wr .att false s))).others

@[simp] theorem send_seq : (send cmd s).seq = s.seq := (frame_unchanged (latchCommand cmd s)).1

theorem send_out : (send cmd s).out = s.out := (frame_unchanged (latchCommand cmd s)).2.1

theorem send_cache : (send cmd s).cache = s.cache := (frame_unchanged (latchCommand cmd s)).2.2.1

@[simp] theorem send_params : (send cmd s).params = s.params := (frame_unchanged (latchCommand cmd s)).2.2.2.2.1

end

/-! ### The transitions, one equation per row of R139 and R131 -/

section
variable {s : State}

theorem negotiationAdvance_enteringConfig (h : s.seq.neg = .enteringConfig) :
    negotiationAdvance s = enterSettingMode s := by
  simp only [negotiationAdvance, h]

theorem negotiationAdvance_mode_pressure (h : s.seq.neg = .settingMode) (hq : s.seq.subseq = .mode)
    (ht : s.seq.target = .pressure) : negotiationAdvance s = setSlot 0 (setSubSeq .en s) := by
  simp only [negotiationAdvance, h, hq, ht, if_true]

theorem negotiationAdvance_mode_other (h : s.seq.neg = .settingMode) (hq : s.seq.subseq = .mode)
    (ht : s.seq.target ≠ .pressure) : negotiationAdvance s = setNeg .exitingConfig s := by
  simp only [negotiationAdvance, h, hq, ht, if_false]

theorem negotiationAdvance_en (h : s.seq.neg = .settingMode) (hq : s.seq.subseq = .en) :
    negotiationAdvance s = setSubSeq .cfg s := by
  simp only [negotiationAdvance, h, hq]

theorem negotiationAdvance_cfg_next (h : s.seq.neg = .settingMode) (hq : s.seq.subseq = .cfg)
    (hk : s.seq.slot.val + 1 < 12) :
    negotiationAdvance s = setSlot ⟨s.seq.slot.val + 1, hk⟩ (setSubSeq .en s) := by
  simp only [negotiationAdvance, h, hq, hk, dif_pos]

theorem negotiationAdvance_cfg_last (h : s.seq.neg = .settingMode) (hq : s.seq.subseq = .cfg)
    (hk : s.seq.slot.val = 11) : negotiationAdvance s = setNeg .exitingConfig s := by
  simp [negotiationAdvance, h, hq, hk]

theorem negotiationAdvance_exitingConfig (h : s.seq.neg = .exitingConfig) :
    negotiationAdvance s = setSync s.params.resyncCount (setNeg .resyncing s) := by
  simp only [negotiationAdvance, h]

theorem negotiationAdvance_resyncing_more (h : s.seq.neg = .resyncing) {n : Nat} (hn : s.seq.syncCtr = n + 2) :
    negotiationAdvance s = setSync (n + 1) s := by
  simp [negotiationAdvance, h, hn]

theorem negotiationAdvance_resyncing_last (h : s.seq.neg = .resyncing) (hn : s.seq.syncCtr = 1) :
    negotiationAdvance s = confirmCheck (setSync 0 s) := by
  simp [negotiationAdvance, h, hn]

end

/-- The Confirmed check writes the sequencer and the flags alone, and of these neither the operand latches nor
`CHANGED` and `INITIALISED` (R140). -/
theorem confirmCheck_frame (s : State) :
    confirmCheck s = { s with seq := (confirmCheck s).seq, flags := (confirmCheck s).flags } ∧
      (confirmCheck s).seq.target = s.seq.target ∧ (confirmCheck s).seq.lock = s.seq.lock ∧
      (confirmCheck s).flags.changed = s.flags.changed ∧
      (confirmCheck s).flags.initialised = s.flags.initialised := by
  obtain ⟨-, hc⟩ | ⟨-, -, hc⟩ | ⟨-, -, hc⟩ := confirmCheck_cases s <;> rw [hc] <;>
    exact ⟨rfl, rfl, rfl, rfl, rfl⟩

/-- A move of the handshake rewrites the sequencer and leaves `OP`; but from Confirmed it ends the operation, and the
last Resyncing poll is followed by the Confirmed check (R139). -/
theorem negotiationAdvance_cases (s : State) :
    (s.seq.neg = .confirmed ∧ negotiationAdvance s = endOp s) ∨
      negotiationAdvance s = confirmCheck (setSync 0 s) ∨
      ∃ q : SequencerRegs, negotiationAdvance s = { s with seq := q } ∧ q.op = s.seq.op := by
  unfold negotiationAdvance
  split
  case h_1 => exact .inr (.inr ⟨s.seq, rfl, rfl⟩)
  case h_2 hneg => exact .inl ⟨hneg, rfl⟩
  case h_3 => exact .inr (.inr ⟨_, rfl, rfl⟩)
  case h_4 =>
    split
    · split <;> exact .inr (.inr ⟨_, rfl, rfl⟩)
    · exact .inr (.inr ⟨_, rfl, rfl⟩)
    · split <;> exact .inr (.inr ⟨_, rfl, rfl⟩)
  case h_5 => exact .inr (.inr ⟨_, rfl, rfl⟩)
  case h_6 =>
    dsimp only
    split
    · next hzero => exact .inr (.inl (by rw [show s.seq.syncCtr - 1 = 0 from hzero]))
    · exact .inr (.inr ⟨_, rfl, rfl⟩)

/-- The moves of the handshake write the sequencer and the flags alone. -/
theorem negotiationAdvance_frame (s : State) :
    negotiationAdvance s =
      { s with seq := (negotiationAdvance s).seq, flags := (negotiationAdvance s).flags } := by
  obtain ⟨-, hc⟩ | hc | ⟨q, hc, -⟩ := negotiationAdvance_cases s <;> rw [hc]
  · rfl
  · exact (confirmCheck_frame (setSync 0 s)).1

/-- Where the check neither confirms nor times out, the handshake goes on (R136). -/
theorem negotiationAdvance_op {s : State} (hneg : s.seq.neg ≠ .confirmed) (htarget : targetConfirmed s = false)
    (hcap : capReached s = false) : (negotiationAdvance s).seq.op = s.seq.op := by
  obtain ⟨hconf, -⟩ | hc | ⟨q, hc, hop⟩ := negotiationAdvance_cases s
  · exact absurd hconf hneg
  · obtain ⟨ht, -⟩ | ⟨-, hreached, -⟩ | ⟨-, -, hnext⟩ := confirmCheck_cases (setSync 0 s)
    · exact absurd (htarget.symm.trans ht) (by decide)
    · exact absurd (hcap.symm.trans hreached) (by decide)
    · rw [hc, hnext]; rfl
  · rw [hc]; exact hop

/-! ### No controller (R227) -/

/-- Nothing drives Data: every byte of a reply is 0xFF. -/
theorem replyByte_nil (k : Nat) : replyByte [] k = 0xFF := by
  simp only [replyByte, levelAt, List.getElem?_nil, Option.getD_none]
  rfl

theorem replyLength_nil : replyLength [] = 33 := by
  rw [replyLength, replyByte_nil]
  rfl

/-- 0xFF is no target's mode byte. -/
theorem modeByteOf_ne (t : Target) : modeByteOf t ≠ 0xFF := by
  cases t <;> decide

/-- Every index a reply has reached holds its byte. -/
theorem bufAt_of_done {cmd : List Byte} {s t : State} (h : TransactionDone cmd s t) {i : Nat}
    (hi : i < replyLength s.env.dataIn) : bufAt t i = replyByte s.env.dataIn i := bufAt_of_read (h.replies i hi)

theorem modeByte_of_done {cmd : List Byte} {s t : State} (h : TransactionDone cmd s t) :
    modeByte t = replyByte s.env.dataIn 1 :=
  bufAt_of_done h (Nat.lt_of_lt_of_le (by decide) (responseLength_ge _))

end Sys2Proof.Machine

namespace Sys2Proof

open Sys2Proof.Machine

/-! ### Unbounded retry (R136, R221) -/

theorem resetAt_takeInputs (s : State) (k : Nat) : resetAt (takeInputs s) k = resetAt s (k + 1) := by
  simp [resetAt, takeInputs]

/-- The step of an unanswered SET_MODE: its transaction reads 0xFF as the mode byte, so the Confirmed check fails. -/
theorem Unanswered.step {s : State} (h : Unanswered s) :
    ∃ t, Machine.step s = .next t ∧ Unanswered t := by
  have hcycle := h.sound.cycle_of_setMode h.op
  have hsound := h.sound.takeInputs.handshakeStep h.op
  have hlegal := h.sound.takeInputs.handshakeCommand_legal h.op
  have hdone := send_done _ (takeInputs s) hlegal
  have hmode := modeByte_of_done hdone
  have henv := hdone.env
  obtain ⟨hseq, -, -, -, hparams, -⟩ := hdone.unchanged
  unfold handshakeStep at hcycle hsound
  generalize send (handshakeCommand (takeInputs s)) (takeInputs s) = v at *
  have hsilent : (takeInputs s).env.dataIn = [] := h.silent
  rw [hsilent, replyByte_nil] at hmode
  have hframe := negotiationAdvance_frame v
  have hop := negotiationAdvance_op (s := v) (by rw [hseq]; exact h.sound.notConfirmed)
    (by simpa [targetConfirmed, hmode] using (modeByteOf_ne _).symm)
    (capReached_of_uncapped (by rw [hparams]; exact h.uncapped))
  refine ⟨_, (step_eq_cycle (h.noReset 0)).trans hcycle, hsound, ?_, ?_, ?_, fun k => ?_⟩
  · rw [hop, hseq]; exact h.op
  · rw [hframe, hparams]; exact h.uncapped
  · rw [hframe, henv, hsilent]; rfl
  · have hreset : resetAt (negotiationAdvance v) k = resetAt (takeInputs s) k := by
      rw [resetAt, hframe, henv]; rfl
    rw [hreset, resetAt_takeInputs]
    exact h.noReset (k + 1)

/-- Settles O57: the one step there is keeps the SET_MODE unanswered. -/
theorem unansweredSetModeStays : Obligations.UnansweredSetModeStays := by
  intro s t h hstep
  obtain ⟨u, hu, hstays⟩ := h.step
  obtain rfl : u = t := by simpa [hu] using hstep
  exact hstays

theorem Unanswered.runSteps {s : State} (h : Unanswered s) (n : Nat) :
    ∃ t, Sys2Proof.runSteps n s = .next t ∧ Unanswered t := by
  induction n generalizing s with
  | zero => exact ⟨s, rfl, h⟩
  | succ n ih =>
    obtain ⟨u, hu, hstays⟩ := h.step
    obtain ⟨t, ht, hend⟩ := ih hstays
    exact ⟨t, by rw [Sys2Proof.runSteps, hu]; exact ht, hend⟩

/-- Settles O43: an accepted SET_MODE is unanswered, and so is it after any number of steps; an engine with an
operation is busy. -/
theorem unansweredSetModeNeverEnds : Obligations.UnansweredSetModeNeverEnds := by
  intro s target lock h hidle hinit hnoReset huncapped hsilent
  refine ⟨startSetMode target lock s, ?_, fun n => ?_⟩
  · rw [exec_setMode, execSetMode_of_idle target lock hidle hinit]
  · have hstart : Unanswered (startSetMode target lock s) := by
      have hsound := h.startSetMode target lock hinit
      rw [startSetMode_eq] at hsound ⊢
      exact ⟨hsound, rfl, huncapped, hsilent, hnoReset⟩
    obtain ⟨t, ht, hend⟩ := hstart.runSteps n
    exact ⟨t, ht, hend.sound.busy_of_op hend.op (by decide)⟩

end Sys2Proof
end

section
/-!
PROOFS. The steps of a SET_MODE at work: the transition table of `NEG` (R139, R131), and runs of such steps, in which
the inputs of the host play no part.
-/

namespace Sys2Proof.Machine

/-! ### The transition table -/

/-- A step of a SET_MODE at work sends its command, in `v`, and then makes the transition. -/
theorem step_of_setMode {s : State} (h : Sound s) (hop : s.seq.op = .setMode) (hreset : resetAt s 0 = none) :
    ∃ v, step s = .next (negotiationAdvance v) ∧ v.seq = s.seq ∧ v.flags = s.flags ∧ v.params = s.params :=
  ⟨send (handshakeCommand (takeInputs s)) (takeInputs s), (step_eq_cycle hreset).trans (h.cycle_of_setMode hop),
    send_seq _ _, send_flags _ _, send_params _ _⟩

/-- `BUF` is what the transaction left. -/
theorem bufAt_negotiationAdvance (s : State) (i : Nat) : bufAt (negotiationAdvance s) i = bufAt s i := by
  rw [negotiationAdvance_frame s]
  rfl

/-- Settles O41: each row is its equation of `negotiationAdvance`, and the rows of the last poll are the three cases
of the Confirmed check. -/
theorem handshakeTransitions : Obligations.HandshakeTransitions := by
  intro s h hop hreset
  obtain ⟨v, hstep, hseq, hflags, hparams⟩ := step_of_setMode h hop hreset
  have hbusy := h.busy_of_op hop (by decide)
  refine ⟨_, hstep, ?_⟩
  rw [← hseq, ← hparams, bufAt_negotiationAdvance]
  rw [← hseq] at hop
  rw [← hflags] at hbusy
  have herr : v.flags.err = .noError := by rw [hflags]; exact h.errBusy (hflags ▸ hbusy)
  have hlast : bufAt v 1 = modeByteOf v.seq.target ↔ targetConfirmed (setSync 0 v) = true := by
    simp [targetConfirmed, modeByte, bufAt]
  refine ⟨fun hn => ?_, fun hn hq ht => ?_, fun hn hq ht => ?_, fun hn hq => ?_, fun hn hq hk => ?_, fun hn hq hk => ?_,
    fun hn => ?_, fun hn hc => ?_, fun hn hc hm => ?_, fun hn hc hm huncapped => ?_, fun k hn hc hm hk hlt => ?_,
    fun k hn hc hm hk hge => ?_⟩
  · rw [negotiationAdvance_enteringConfig hn]; exact ⟨rfl, rfl⟩
  · rw [negotiationAdvance_mode_other hn hq ht]; rfl
  · rw [negotiationAdvance_mode_pressure hn hq ht]; exact ⟨hn, rfl, rfl⟩
  · rw [negotiationAdvance_en hn hq]; exact ⟨hn, rfl, rfl⟩
  · rw [negotiationAdvance_cfg_next hn hq (by omega)]; exact ⟨hn, rfl, rfl⟩
  · rw [negotiationAdvance_cfg_last hn hq hk]; rfl
  · rw [negotiationAdvance_exitingConfig hn]; exact ⟨rfl, rfl⟩
  · obtain ⟨n, hn2⟩ := Nat.exists_eq_add_of_le' hc
    rw [negotiationAdvance_resyncing_more hn hn2, hn2]
    exact ⟨hn, rfl⟩
  · rw [negotiationAdvance_resyncing_last hn hc]
    obtain ⟨-, hcheck⟩ | ⟨hno, -, -⟩ | ⟨hno, -, -⟩ := confirmCheck_cases (setSync 0 v)
    · rw [hcheck]; exact ⟨rfl, rfl, herr⟩
    · exact absurd (hlast.mp hm) (Bool.eq_false_iff.mp hno)
    · exact absurd (hlast.mp hm) (Bool.eq_false_iff.mp hno)
  · rw [negotiationAdvance_resyncing_last hn hc]
    obtain ⟨hyes, -⟩ | ⟨-, hcap, -⟩ | ⟨-, -, hcheck⟩ := confirmCheck_cases (setSync 0 v)
    · exact absurd (hlast.mpr hyes) hm
    · simp [capReached_of_uncapped (s := setSync 0 v) huncapped] at hcap
    · rw [hcheck]; exact ⟨rfl, hbusy⟩
  · rw [negotiationAdvance_resyncing_last hn hc]
    obtain ⟨hyes, -⟩ | ⟨-, hcap, -⟩ | ⟨-, -, hcheck⟩ := confirmCheck_cases (setSync 0 v)
    · exact absurd (hlast.mpr hyes) hm
    · exact absurd ((capReached_iff (s := setSync 0 v) hk).mp hcap) (Nat.not_le.mpr hlt)
    · rw [hcheck]; exact ⟨rfl, hbusy, by simp [hk]⟩
  · rw [negotiationAdvance_resyncing_last hn hc]
    obtain ⟨hyes, -⟩ | ⟨-, -, hcheck⟩ | ⟨-, hcap, -⟩ := confirmCheck_cases (setSync 0 v)
    · exact absurd (hlast.mpr hyes) hm
    · rw [hcheck]; exact ⟨rfl, rfl, rfl⟩
    · exact absurd ((capReached_iff (s := setSync 0 v) hk).mpr hge) (Bool.eq_false_iff.mp hcap)

/-! ### The inputs of the host play no part in the handshake -/

/-- `s` with other inputs of the host. -/
def withHost (requests : List (Option Byte)) (resets : List (Option Nat)) (s : State) : State :=
  { s with env := { s.env with hostIn := requests, resetIn := resets } }

section
variable (requests : List (Option Byte)) (resets : List (Option Nat)) (s : State)

theorem takeInputs_eq_withHost : takeInputs s = withHost s.env.hostIn.tail s.env.resetIn.tail s := rfl

theorem exchangeAt_withHost (i : Nat) :
    exchangeAt (withHost requests resets s) i = withHost requests resets (exchangeAt s i) := by
  rw [exchangeAt_eq, exchangeAt_eq]
  rfl

theorem foldl_exchangeAt_withHost (l : List Nat) :
    l.foldl exchangeAt (withHost requests resets s) = withHost requests resets (l.foldl exchangeAt s) := by
  induction l generalizing s with
  | nil => rfl
  | cons i l ih => rw [List.foldl_cons, List.foldl_cons, exchangeAt_withHost, ih]

theorem frame_withHost : frame (withHost requests resets s) = withHost requests resets (frame s) := by
  have hassert : wait .att (wr .att false (withHost requests resets s)) =
      withHost requests resets (wait .att (wr .att false s)) := rfl
  have hlen : replyLength (withHost requests resets s).env.dataIn = replyLength s.env.dataIn := rfl
  rw [frame_eq, frame_eq, hassert, hlen]
  dsimp only
  rw [foldl_exchangeAt_withHost]
  rfl

theorem send_withHost (cmd : List Byte) :
    send cmd (withHost requests resets s) = withHost requests resets (send cmd s) :=
  frame_withHost requests resets (latchCommand cmd s)

theorem confirmCheck_withHost :
    confirmCheck (withHost requests resets s) = withHost requests resets (confirmCheck s) := by
  unfold confirmCheck
  have htarget : targetConfirmed (withHost requests resets s) = targetConfirmed s := rfl
  have hcap : capReached (withHost requests resets s) = capReached s := rfl
  rw [htarget, hcap]
  split_ifs <;> rfl

theorem negotiationAdvance_withHost :
    negotiationAdvance (withHost requests resets s) = withHost requests resets (negotiationAdvance s) := by
  unfold negotiationAdvance
  have hseq : (withHost requests resets s).seq = s.seq := rfl
  rw [hseq]
  cases s.seq.neg with
  | settingMode =>
    cases s.seq.subseq with
    | mode => dsimp only; split_ifs <;> rfl
    | en => rfl
    | cfg => dsimp only; split_ifs <;> rfl
  | resyncing =>
    have hsync : ∀ n, setSync n (withHost requests resets s) = withHost requests resets (setSync n s) := fun _ => rfl
    have hctr : ∀ u, (withHost requests resets u).seq.syncCtr = u.seq.syncCtr := fun _ => rfl
    dsimp only
    rw [hsync, hctr, confirmCheck_withHost]
    split_ifs <;> rfl
  | _ => rfl

theorem handshakeStep_withHost :
    handshakeStep (withHost requests resets s) = withHost requests resets (handshakeStep s) := by
  have hcmd : handshakeCommand (withHost requests resets s) = handshakeCommand s := rfl
  rw [handshakeStep, handshakeStep, hcmd, send_withHost, negotiationAdvance_withHost]

end

/-! ### Several steps of a SET_MODE at work -/

/-- `n` steps of a SET_MODE at work lead from `s` to `t`, but for the inputs that pass. -/
inductive HandshakeRun : Nat → State → State → Prop
  | done (s : State) : HandshakeRun 0 s s
  | step {n : Nat} {s t : State} (hop : s.seq.op = .setMode) (rest : HandshakeRun n (handshakeStep s) t) :
      HandshakeRun (n + 1) s t

section
variable {m n : Nat} {s t u : State}

theorem HandshakeRun.trans (first : HandshakeRun m s u) (second : HandshakeRun n u t) : HandshakeRun (n + m) s t := by
  induction first with
  | done => exact second
  | step hop _ ih => exact .step hop (ih second)

/-- One step, by the state it leads to. -/
theorem HandshakeRun.one (hop : s.seq.op = .setMode) (h : handshakeStep s = t) : HandshakeRun 1 s t :=
  .step hop (h ▸ .done _)

theorem HandshakeRun.withHost (h : HandshakeRun n s t) (requests : List (Option Byte)) (resets : List (Option Nat)) :
    HandshakeRun n (withHost requests resets s) (withHost requests resets t) := by
  induction h with
  | done => exact .done _
  | step hop _ ih => exact .step hop (handshakeStep_withHost requests resets _ ▸ ih)

/-- From a sound state such a run is what the steps of the machine make, and it ends in a sound state. -/
theorem HandshakeRun.runSteps (h : HandshakeRun n s t) (hs : Sound s) (hreset : ∀ k, k < n → resetAt s k = none) :
    Sys2Proof.runSteps n s = .next (Machine.withHost (s.env.hostIn.drop n) (s.env.resetIn.drop n) t) ∧
      Sound (Machine.withHost (s.env.hostIn.drop n) (s.env.resetIn.drop n) t) := by
  induction n generalizing s t with
  | zero =>
    cases h
    exact ⟨rfl, hs⟩
  | succ n ih =>
    cases h with
    | step hop rest =>
      have hstep := (step_eq_cycle (hreset 0 (Nat.succ_pos n))).trans (hs.cycle_of_setMode hop)
      have hsound := hs.takeInputs.handshakeStep hop
      have hresets : ∀ k, k < n → resetAt (handshakeStep (takeInputs s)) k = none := by
        intro k hk
        rw [← hreset (k + 1) (Nat.succ_lt_succ hk), ← resetAt_takeInputs, takeInputs_eq_withHost,
          handshakeStep_withHost]
        rfl
      rw [Sys2Proof.runSteps, hstep]
      rw [takeInputs_eq_withHost, handshakeStep_withHost] at hsound hresets ⊢
      simpa [Machine.withHost] using ih (rest.withHost _ _) hsound hresets

end

end Sys2Proof.Machine
end

section
/-!
PROOFS. One attempt of the handshake by the steps of the machine: one step for each wire command (R128, R131, R138).
-/

namespace Sys2Proof.Machine

/-! ### An attempt, step by step -/

section
variable {s : State}

theorem handshakeStep_enteringConfig (h : s.seq.neg = .enteringConfig) :
    handshakeStep s = enterSettingMode (send cfgEnterBytes s) := by
  simp only [handshakeStep, handshakeCommand, h]
  exact negotiationAdvance_enteringConfig (by simpa using h)

theorem handshakeStep_mode_pressure (h : s.seq.neg = .settingMode) (hq : s.seq.subseq = .mode)
    (ht : s.seq.target = .pressure) :
    handshakeStep s =
      setSlot 0 (setSubSeq .en
        (send (setModeBytes (analogFlag s.params s.seq.target) (lockFlag s.params s.seq.lock)) s)) := by
  simp only [handshakeStep, handshakeCommand, h, hq]
  exact negotiationAdvance_mode_pressure (by simpa using h) (by simpa using hq) (by simpa using ht)

theorem handshakeStep_mode_other (h : s.seq.neg = .settingMode) (hq : s.seq.subseq = .mode)
    (ht : s.seq.target ≠ .pressure) :
    handshakeStep s =
      setNeg .exitingConfig
        (send (setModeBytes (analogFlag s.params s.seq.target) (lockFlag s.params s.seq.lock)) s) := by
  simp only [handshakeStep, handshakeCommand, h, hq]
  exact negotiationAdvance_mode_other (by simpa using h) (by simpa using hq) (by simpa using ht)

theorem handshakeStep_en (h : s.seq.neg = .settingMode) (hq : s.seq.subseq = .en) :
    handshakeStep s = setSubSeq .cfg (send (pressEnBytes s.params s.seq.slot) s) := by
  simp only [handshakeStep, handshakeCommand, h, hq]
  exact negotiationAdvance_en (by simpa using h) (by simpa using hq)

theorem handshakeStep_cfg (h : s.seq.neg = .settingMode) (hq : s.seq.subseq = .cfg) :
    handshakeStep s = negotiationAdvance (send (pressCfgBytes s.params) s) := by
  simp only [handshakeStep, handshakeCommand, h, hq]

theorem handshakeStep_exitingConfig (h : s.seq.neg = .exitingConfig) :
    handshakeStep s = setSync s.params.resyncCount (setNeg .resyncing (send cfgExitBytes s)) := by
  simp only [handshakeStep, handshakeCommand, h]
  rw [negotiationAdvance_exitingConfig (by simpa using h), send_params]

theorem handshakeStep_resyncing (h : s.seq.neg = .resyncing) :
    handshakeStep s = negotiationAdvance (send (pollBytes s.params) s) := by
  simp only [handshakeStep, handshakeCommand, h]

end

/-- `s` about to enable pressure for the slot `k` (R131). -/
def atSlot (k : Fin 12) (s : State) : State := setSlot k (setSubSeq .en s)

@[simp] theorem atSlot_seq (k : Fin 12) (s : State) :
    (atSlot k s).seq = { s.seq with subseq := .en, slot := k } := rfl

@[simp] theorem atSlot_params (k : Fin 12) (s : State) : (atSlot k s).params = s.params := rfl

@[simp] theorem pressureSlot_seq (s : State) (k : Fin 12) :
    (pressureSlot s k).seq = { s.seq with subseq := .cfg, slot := k } := by
  simp [pressureSlot]

@[simp] theorem pressureSlot_params (s : State) (k : Fin 12) : (pressureSlot s k).params = s.params := by
  simp [pressureSlot]

section
variable {s : State}

/-- Both commands of a slot, and the move after them. -/
theorem slot_run (k : Fin 12) {t : State} (hop : s.seq.op = .setMode) (hneg : s.seq.neg = .settingMode)
    (hnext : negotiationAdvance (pressureSlot s k) = t) : HandshakeRun 2 (atSlot k s) t := by
  have hen : handshakeStep (atSlot k s) = setSubSeq .cfg (send (pressEnBytes s.params k) (atSlot k s)) :=
    handshakeStep_en hneg rfl
  refine .step hop (.one (by rw [hen]; simpa using hop) ?_)
  rw [hen, handshakeStep_cfg (by simpa using hneg) (by simp), ← hnext, pressureSlot]
  simp only [setSubSeq_params, setSlot_params, send_params, atSlot_params]
  rfl

/-- The slots from `k` on, in the order of R131. -/
theorem slots_run (d : Nat) {k : Nat} (hk : k + d = 11) (hop : s.seq.op = .setMode) (hneg : s.seq.neg = .settingMode) :
    HandshakeRun (2 * d + 2) (atSlot ⟨k, by omega⟩ s)
      (setNeg .exitingConfig ((slotOrder.drop k).foldl pressureSlot s)) := by
  have hdrop : ∀ k : Fin 12, slotOrder.drop k = k :: slotOrder.drop (k + 1) := by decide
  induction d generalizing k s with
  | zero =>
    obtain rfl : k = 11 := by omega
    refine slot_run _ hop hneg ?_
    rw [negotiationAdvance_cfg_last (by simpa using hneg) (by simp) (by simp)]
    rfl
  | succ d ih =>
    have hslot : HandshakeRun 2 (atSlot ⟨k, by omega⟩ s)
        (atSlot ⟨k + 1, by omega⟩ (pressureSlot s ⟨k, by omega⟩)) := by
      refine slot_run _ hop hneg ?_
      rw [negotiationAdvance_cfg_next (by simpa using hneg) (by simp) (by simp; omega)]
      simp [atSlot]
    rw [hdrop ⟨k, by omega⟩]
    exact hslot.trans (ih (by omega) (by simpa using hop) (by simpa using hneg))

/-- The polls of Resyncing, and the Confirmed check after them. -/
theorem resync_run (n : Nat) (hop : s.seq.op = .setMode) (hneg : s.seq.neg = .resyncing) :
    HandshakeRun (n + 1) (setSync (n + 1) s) (confirmCheck (syncBurst (n + 1) s)) := by
  induction n generalizing s with
  | zero =>
    refine .one hop ?_
    rw [handshakeStep_resyncing (s := setSync 1 s) hneg,
      negotiationAdvance_resyncing_last (by simpa using hneg) (by simp)]
    rfl
  | succ n ih =>
    have hstep : handshakeStep (setSync (n + 2) s) =
        setSync (n + 1) (send (pollBytes s.params) (setSync (n + 2) s)) := by
      rw [handshakeStep_resyncing (s := setSync (n + 2) s) hneg,
        negotiationAdvance_resyncing_more (n := n) (by simpa using hneg) (by simp)]
      rfl
    exact .step hop (hstep ▸ ih (by simpa using hop) (by simpa using hneg))

end

/-- CFG_ENTER and SET_MODE_CMD sent (R128). -/
def modeSent (s : State) : State :=
  let s := enterSettingMode (send cfgEnterBytes s)
  send (setModeBytes (analogFlag s.params s.seq.target) (lockFlag s.params s.seq.lock)) s

theorem modeSent_eq (s : State) :
    modeSent s =
      send (setModeBytes (analogFlag s.params s.seq.target) (lockFlag s.params s.seq.lock))
        (enterSettingMode (send cfgEnterBytes s)) := by
  simp [modeSent, enterSettingMode]

@[simp] theorem modeSent_seq (s : State) :
    (modeSent s).seq = { s.seq with neg := .settingMode, subseq := .mode } := by
  simp [modeSent, enterSettingMode]

@[simp] theorem modeSent_params (s : State) : (modeSent s).params = s.params := by
  simp [modeSent, enterSettingMode]

/-- The pressure commands sent as well, where the target asks for them: CFG_EXIT is due (R128). -/
def configured (s : State) : State :=
  if (modeSent s).seq.target = .pressure then slotOrder.foldl pressureSlot (modeSent s) else modeSent s

/-- CFG_EXIT and the polls of Resyncing sent: the Confirmed check is due (R128). -/
def resynced (s : State) : State :=
  syncBurst (setNeg .resyncing (send cfgExitBytes s)).params.resyncCount (setNeg .resyncing (send cfgExitBytes s))

theorem negotiationPass_eq (s : State) :
    negotiationPass s = confirmCheck (resynced (setNeg .exitingConfig (configured s))) := rfl

theorem configured_of_pressure {s : State} (h : s.seq.target = .pressure) :
    configured s = slotOrder.foldl pressureSlot (modeSent s) := if_pos (by simpa using h)

theorem configured_of_other {s : State} (h : s.seq.target ≠ .pressure) : configured s = modeSent s :=
  if_neg (by simpa using h)

theorem foldl_pressureSlot_keeps (ks : List (Fin 12)) (s : State) :
    (ks.foldl pressureSlot s).params = s.params ∧
      ∃ q k, (ks.foldl pressureSlot s).seq = { s.seq with subseq := q, slot := k } := by
  induction ks generalizing s with
  | nil => exact ⟨rfl, _, _, rfl⟩
  | cons k ks ih =>
    obtain ⟨hparams, q, j, hseq⟩ := ih (pressureSlot s k)
    exact ⟨by simp [hparams], q, j, by simp [hseq]⟩

/-- Of the sequencer only `NEG`, `SUBSEQ` and `SLOT` have moved. -/
theorem configured_keeps (s : State) :
    (configured s).params = s.params ∧
      ∃ q k, (configured s).seq = { s.seq with neg := .settingMode, subseq := q, slot := k } := by
  by_cases ht : s.seq.target = .pressure
  · rw [configured_of_pressure ht]
    simpa using foldl_pressureSlot_keeps slotOrder (modeSent s)
  · rw [configured_of_other ht]
    exact ⟨modeSent_params s, _, _, modeSent_seq s⟩

/-- Of the sequencer only `SYNC_CTR` and `NEG` have moved. -/
theorem resynced_seq (s : State) : (resynced s).seq = { s.seq with neg := .resyncing, syncCtr := 0 } := by
  simp [resynced, syncBurst_seq]

/-- The steps up to the end of Resyncing, from where CFG_EXIT is due. -/
theorem resynced_run {s : State} (hop : s.seq.op = .setMode) (hneg : s.seq.neg = .exitingConfig)
    (hpos : 1 ≤ s.params.resyncCount) :
    HandshakeRun (s.params.resyncCount + 1) s (confirmCheck (resynced s)) := by
  obtain ⟨n, hn⟩ := Nat.exists_eq_add_of_le' hpos
  have hstep := handshakeStep_exitingConfig hneg
  rw [resynced, setNeg_params, send_params]
  rw [hn] at hstep ⊢
  exact .step hop (hstep ▸ resync_run n (by simpa using hop) rfl)

/-- The steps up to where CFG_EXIT is due: one for each of the first two commands, and two for each slot. -/
theorem configured_run {s : State} (hop : s.seq.op = .setMode) (hneg : s.seq.neg = .enteringConfig) :
    HandshakeRun (if s.seq.target = .pressure then 26 else 2) s (setNeg .exitingConfig (configured s)) := by
  have henter := handshakeStep_enteringConfig hneg
  have hop' : (handshakeStep s).seq.op = .setMode := by simp [henter, enterSettingMode, hop]
  by_cases ht : s.seq.target = .pressure
  · have hmode : handshakeStep (handshakeStep s) = atSlot 0 (modeSent s) := by
      rw [henter]
      exact handshakeStep_mode_pressure rfl rfl (by simpa [enterSettingMode] using ht)
    have hslots := slots_run 11 (k := 0) (s := modeSent s) rfl (by simpa using hop) (by simp)
    rw [if_pos ht, configured_of_pressure ht]
    exact .step hop (.step hop' (hmode ▸ hslots))
  · have hmode : handshakeStep (handshakeStep s) = setNeg .exitingConfig (modeSent s) := by
      rw [henter]
      exact handshakeStep_mode_other rfl rfl (by simpa [enterSettingMode] using ht)
    rw [if_neg ht, configured_of_other ht]
    exact .step hop (.one hop' hmode)

/-- One pass of the loop of R128 is as many steps as it has transactions (R138). -/
theorem negotiationPass_run {s : State} (hop : s.seq.op = .setMode) (hneg : s.seq.neg = .enteringConfig)
    (hpos : 1 ≤ s.params.resyncCount) :
    HandshakeRun (transactionsPerAttempt s.params s.seq.target) s (negotiationPass s) := by
  obtain ⟨hparams, q, k, hseq⟩ := configured_keeps s
  have hresync := resynced_run (s := setNeg .exitingConfig (configured s)) (by simpa [hseq] using hop) rfl
    (by simpa [hparams] using hpos)
  have hrun := (configured_run hop hneg).trans hresync
  have hcount : (setNeg .exitingConfig (configured s)).params.resyncCount + 1 +
      (if s.seq.target = .pressure then 26 else 2) = transactionsPerAttempt s.params s.seq.target := by
    rw [setNeg_params, hparams]
    cases s.seq.target <;> simp [transactionsPerAttempt] <;> omega
  rw [negotiationPass_eq, ← hcount]
  exact hrun

end Sys2Proof.Machine

namespace Sys2Proof

open Sys2Proof.Machine

/-! ### NEGOTIATE and the steps of SET_MODE -/

/-- With parameters that meet R7 the pressure commands are legal. -/
theorem negotiationLegal_of_wf {s : State} (h : s.params.Wf) : negotiationLegal s = true := by
  have hcfg : legalCommand s.params (pressCfgBytes s.params) = true := h.pressCfgLegal
  have hen : ∀ k, legalCommand s.params (pressEnBytes s.params k) = true := h.pressEnLegal
  simp [negotiationLegal, hcfg, hen]

theorem exec_negotiate_of_ready {s : State} (hready : linesReady s = true) (hwf : s.params.Wf) :
    exec .negotiate s = .next (negotiationPass (startAttempt (clearAttempts s))) := by
  simp [execNegotiate, hready, negotiationLegal_of_wf hwf]

/-- Settles O40: what SET_MODE's acceptance leaves is where NEGOTIATE's pass begins, and the pass is a run of steps. -/
theorem setModeStepsAreHandshake : Obligations.SetModeStepsAreHandshake := by
  intro s target lock h hidle hinit hreset
  have hstart := h.startSetMode target lock hinit
  have hrun := negotiationPass_run (s := startSetMode target lock s) (by rw [startSetMode_eq])
    (by rw [startSetMode_eq]) (by rw [startSetMode_eq]; exact h.params.resyncPositive)
  refine ⟨startSetMode target lock s, negotiationPass (startSetMode target lock s), ?_, ?_, ?_⟩
  · rw [exec_setMode, execSetMode_of_idle target lock hidle hinit]
  · exact exec_negotiate_of_ready (h.ready hinit) h.params
  · have hcount : transactionsPerAttempt (startSetMode target lock s).params (startSetMode target lock s).seq.target =
        transactionsPerAttempt s.params target := by rw [startSetMode_eq]
    have henv : (startSetMode target lock s).env = s.env := by rw [startSetMode_eq]
    rw [hcount] at hrun
    have hsteps := (hrun.runSteps hstart fun k hk => by rw [resetAt, henv]; exact hreset k hk).1
    rwa [henv] at hsteps

end Sys2Proof
end

section
/-!
PROOFS. One attempt of the handshake as a run of transactions: what NEGOTIATE leaves (R128, R135 to R142), how many
transactions it is (R138), and the retry cap (R137).
-/

namespace Sys2Proof.Machine

/-! ### Putting runs of transactions together -/

section
variable {cmds more : List (List Byte)} {s t u : State}

/-- The sequencer may move before the first transaction. -/
theorem Transactions.from_seq {q : SequencerRegs} (h : Transactions cmds { s with seq := q } t) :
    Transactions cmds s t := by
  cases h with
  | nil _ q' => exact .nil s q'
  | cons q' first rest => exact .cons q' first rest

theorem Transactions.append (first : Transactions cmds s u) (second : Transactions more u t) :
    Transactions (cmds ++ more) s t := by
  induction first with
  | nil s q => exact second.from_seq
  | cons q first _ ih => exact .cons q first (ih second)

/-- One more transaction, after a move of the sequencer. -/
theorem Transactions.send (h : Transactions cmds s u) (q : SequencerRegs) {cmd : List Byte}
    (hlegal : legalCommand s.params cmd = true) :
    Transactions (cmds ++ [cmd]) s (Machine.send cmd { u with seq := q }) := by
  obtain ⟨-, -, -, hparams, -⟩ := h.unchanged
  have hdone := send_done cmd { u with seq := q } (by rw [hparams]; exact hlegal)
  exact h.append (.cons q hdone (.nil _ _))

/-- The lines are High after any transaction (R47). -/
theorem Transactions.lines_high (h : Transactions cmds s t) (hne : cmds ≠ []) : t.lines = linesHigh s.lines := by
  cases h with
  | nil => exact absurd rfl hne
  | cons q first rest =>
    have hlines := first.lines
    rw [rest.lines (by rw [hlines]; rfl), hlines]

end

/-! ### The transactions of an attempt -/

theorem foldl_pressureSlot_transactions (ks : List (Fin 12)) (s : State) (hwf : s.params.Wf) :
    Transactions (ks.flatMap fun k => [pressEnBytes s.params k, pressCfgBytes s.params]) s (ks.foldl pressureSlot s) := by
  induction ks generalizing s with
  | nil => exact .nil s s.seq
  | cons k ks ih =>
    have hen := (Transactions.nil s s.seq).send (setSubSeq .en (setSlot k s)).seq (hwf.pressEnLegal k)
    have hslot : Transactions [pressEnBytes s.params k, pressCfgBytes s.params] s (pressureSlot s k) := by
      simp only [pressureSlot, setSubSeq_params, setSlot_params, send_params]
      exact hen.send (setSubSeq .cfg (send (pressEnBytes s.params k) (setSubSeq .en (setSlot k s)))).seq
        hwf.pressCfgLegal
    have hrest := ih (pressureSlot s k) (by simpa using hwf)
    rw [pressureSlot_params] at hrest
    exact hslot.append hrest

/-- What one pass of the loop performs, up to the Confirmed check (R128, R131). -/
theorem resynced_transactions (s : State) (hwf : s.params.Wf) :
    Transactions (attemptCommands s.params s.seq.target s.seq.lock) s
      (resynced (setNeg .exitingConfig (configured s))) := by
  have hmode : Transactions
      [cfgEnterBytes, setModeBytes (analogFlag s.params s.seq.target) (lockFlag s.params s.seq.lock)] s
      (modeSent s) := by
    have henter := (Transactions.nil s s.seq).send s.seq (cfgEnterBytes_legal s.params)
    have h := henter.send (enterSettingMode (send cfgEnterBytes s)).seq
      (setModeBytes_legal s.params (analogFlag s.params s.seq.target) (lockFlag s.params s.seq.lock))
    rw [modeSent_eq]
    exact h
  have hconf : Transactions
      ([cfgEnterBytes, setModeBytes (analogFlag s.params s.seq.target) (lockFlag s.params s.seq.lock)] ++
        (if s.seq.target = .pressure then slotOrder.flatMap fun k => [pressEnBytes s.params k, pressCfgBytes s.params]
          else [])) s (configured s) := by
    by_cases ht : s.seq.target = .pressure
    · have hslots := foldl_pressureSlot_transactions slotOrder (modeSent s) (by simpa using hwf)
      rw [modeSent_params] at hslots
      rw [configured_of_pressure ht, if_pos ht]
      exact hmode.append hslots
    · rw [configured_of_other ht, if_neg ht, List.append_nil]
      exact hmode
  have hexit := hconf.send (setNeg .exitingConfig (configured s)).seq (cfgExitBytes_legal s.params)
  have hpolls := syncBurst_transactions s.params.resyncCount
    (setNeg .resyncing (send cfgExitBytes (setNeg .exitingConfig (configured s))))
  have hparams : (setNeg .resyncing (send cfgExitBytes (setNeg .exitingConfig (configured s)))).params = s.params := by
    simp [(configured_keeps s).1]
  rw [resynced, hparams]
  rw [hparams] at hpolls
  exact hexit.append (Transactions.from_seq (s := send cfgExitBytes (setNeg .exitingConfig (configured s))) hpolls)

/-- One pass: the transactions of an attempt, which leave the operation, its operands and its count of attempts, and
then the Confirmed check. -/
theorem negotiationPass_done (s : State) (hwf : s.params.Wf) :
    ∃ u, negotiationPass s = confirmCheck u ∧
      Transactions (attemptCommands s.params s.seq.target s.seq.lock) s u ∧ u.seq.op = s.seq.op ∧
      u.seq.target = s.seq.target ∧ u.seq.lock = s.seq.lock ∧ u.seq.attempt = s.seq.attempt := by
  obtain ⟨-, q, k, hseq⟩ := configured_keeps s
  refine ⟨_, negotiationPass_eq s, resynced_transactions s hwf, ?_⟩
  rw [resynced_seq, setNeg_seq, hseq]
  exact ⟨rfl, rfl, rfl, rfl⟩

/-! ### NEGOTIATE -/

/-- The start of the handshake moves the sequencer alone: the first attempt, where attempts are counted (R128). -/
theorem startAttempt_clearAttempts (s : State) :
    startAttempt (clearAttempts s) =
      { s with
        seq :=
          { s.seq with
            attempt := if s.params.retryCap.isSome then 1 else s.seq.attempt
            neg := .enteringConfig } } := by
  unfold clearAttempts startAttempt
  cases hcap : s.params.retryCap <;> simp [hcap]

theorem targetConfirmed_iff {s : State} : targetConfirmed s = true ↔ bufAt s 1 = modeByteOf s.seq.target := by
  simp [targetConfirmed, modeByte]

/-- A cap on the first attempt is reached exactly when it is one attempt (R7, R137). -/
theorem capReached_first_iff {s : State} (hwf : s.params.Wf)
    (hattempt : s.params.retryCap.isSome = true → s.seq.attempt = 1) :
    capReached s = true ↔ s.params.retryCap = some 1 := by
  cases hcap : s.params.retryCap with
  | none => simp [capReached_of_uncapped hcap]
  | some k =>
    have hpos := hwf.capPositive k hcap
    rw [capReached_iff hcap, hattempt (by rw [hcap]; rfl), Option.some_inj]
    omega

theorem attemptCommands_ne_nil (p : Params) (t : Target) (lock : Bool) : attemptCommands p t lock ≠ [] := by
  simp [attemptCommands]

end Sys2Proof.Machine

namespace Sys2Proof

open Sys2Proof.Machine

/-- Settles O38: the attempt is a run of transactions, so its trace, its answers, `BUF` and the lines are what such a run
leaves; the three ends are the three cases of the Confirmed check on a first attempt. -/
theorem negotiateRunsOneAttempt : Obligations.NegotiateRunsOneAttempt := by
  intro s hready hwf
  have hexec := exec_negotiate_of_ready hready hwf
  rw [startAttempt_clearAttempts] at hexec
  obtain ⟨u, hpass, hrun, hop, htarget, hlock, hattempt⟩ := negotiationPass_done
    { s with seq := { s.seq with
        attempt := if s.params.retryCap.isSome then 1 else s.seq.attempt, neg := .enteringConfig } } hwf
  replace hrun : Transactions (attemptCommands s.params s.seq.target s.seq.lock) s u := hrun.from_seq
  obtain ⟨hout, hcache, hflags, hparams, hpower⟩ := hrun.unchanged
  obtain ⟨hrecv, -, hfr, hbx⟩ := hrun.last (attemptCommands_ne_nil _ _ _)
  obtain ⟨hframe, htarget', hlock', hchanged, hinit⟩ := confirmCheck_frame u
  have hbuf : bufAt (confirmCheck u) 1 = bufAt u 1 := by rw [hframe]; rfl
  have hconfirmed : targetConfirmed u = true ↔ bufAt u 1 = modeByteOf s.seq.target := by
    rw [targetConfirmed_iff, htarget]
  have hcap : capReached u = true ↔ s.params.retryCap = some 1 := by
    rw [← hparams]
    exact capReached_first_iff (hparams ▸ hwf) fun hsome => by rw [hattempt, if_pos (hparams ▸ hsome)]
  rw [hpass] at hexec
  refine ⟨confirmCheck u, hexec, ?_, ?_, ?_, ?_, ?_, ?_, ?_, ?_, ?_, ?_, ?_, ?_, ?_, htarget'.trans htarget,
    hlock'.trans hlock, ?_⟩
  · rw [hframe]; exact hrun.trace
  · rw [hframe]; exact hrun.env
  · rw [hframe]; exact hrun.replies
  · rw [hframe]; exact hrecv
  · rw [hframe]; exact hrun.lines_high (attemptCommands_ne_nil _ _ _)
  · rw [hframe]; exact hfr
  · rw [hframe]; exact hbx
  · rw [hframe]; exact hout
  · rw [hframe]; exact hcache
  · rw [hchanged, hflags]
  · rw [hinit, hflags]
  · rw [hframe]; exact hparams
  · rw [hframe]; exact hpower
  rw [hbuf, ← hflags]
  obtain ⟨hyes, hc⟩ | ⟨hno, hreached, hc⟩ | ⟨hno, hbelow, hc⟩ := confirmCheck_cases u <;> rw [hc]
  · have hmode := hconfirmed.mp hyes
    exact ⟨fun _ => ⟨rfl, rfl, rfl, rfl⟩, fun h => absurd hmode h, fun h => absurd hmode h⟩
  · have hmode := mt hconfirmed.mpr (Bool.eq_false_iff.mp hno)
    exact ⟨fun h => absurd h hmode, fun _ _ => ⟨rfl, rfl, rfl, rfl⟩, fun _ h => absurd (hcap.mp hreached) h⟩
  · have hmode := mt hconfirmed.mpr (Bool.eq_false_iff.mp hno)
    exact ⟨fun h => absurd h hmode, fun _ h => absurd (hcap.mpr h) (Bool.eq_false_iff.mp hbelow),
      fun _ _ => ⟨rfl, hop, rfl⟩⟩

/-! ### How many transactions an attempt is -/

/-- Attention does not move within a byte (R71). -/
theorem count_att_exchangeEvents (out back : Byte) : (exchangeEvents out back).count (.wr .att false) = 0 := by
  rw [List.count_eq_zero]
  simp [exchangeEvents, cellEvents]

/-- A transaction has one falling edge of Attention (R112). -/
theorem count_att_transactionEvents (cmd : List Byte) (levels : List Level) :
    (transactionEvents cmd levels).count (.wr .att false) = 1 := by
  rw [measure_transactionEvents (List.count (.wr .att false)) (fun _ _ => List.count_append) count_att_exchangeEvents,
    Nat.mul_zero]
  rfl

theorem count_att_commandEvents (cmds : List (List Byte)) (levels : List Level) :
    (commandEvents cmds levels).count (.wr .att false) = cmds.length := by
  induction cmds generalizing levels with
  | nil => rfl
  | cons cmd cmds ih =>
    rw [commandEvents, List.count_append, count_att_transactionEvents, ih, List.length_cons, Nat.add_comm]

/-- R138's number is that of the commands of R128. -/
theorem length_attemptCommands (p : Params) (t : Target) (lock : Bool) :
    (attemptCommands p t lock).length = transactionsPerAttempt p t := by
  cases t <;> simp [attemptCommands, transactionsPerAttempt, slotOrder] <;> omega

/-- Settles O39: each command of the attempt is one transaction, and each transaction one falling edge. -/
theorem attemptTransactionCount : Obligations.AttemptTransactionCount := by
  intro s hready hwf
  obtain ⟨t, hexec, htrace, -⟩ := negotiateRunsOneAttempt s hready hwf
  have hcount : t.trace.count (.wr .att false) =
      s.trace.count (.wr .att false) + transactionsPerAttempt s.params s.seq.target := by
    rw [htrace, List.count_append, List.count_reverse, count_att_commandEvents, length_attemptCommands, Nat.add_comm]
  refine ⟨t, hexec, ?_, hcount⟩
  rw [hcount]
  cases s.seq.target <;> rfl

/-! ### The retry cap (R137) -/

theorem runSteps_succ {s u : State} (h : step s = .next u) (n : Nat) : runSteps (n + 1) s = runSteps n u := by
  rw [runSteps, h]

theorem runSteps_add {m : Nat} {s u : State} (h : runSteps m s = .next u) (n : Nat) :
    runSteps (m + n) s = runSteps n u := by
  induction m generalizing s with
  | zero =>
    obtain rfl : s = u := by simpa [runSteps] using h
    rw [Nat.zero_add]
  | succ m ih =>
    rw [Nat.succ_add]
    cases hstep : step s with
    | next v =>
      rw [runSteps_succ hstep] at h ⊢
      exact ih h
    | fault r => rw [runSteps, hstep] at h; cases h
    | refused r => rw [runSteps, hstep] at h; cases h

/-- The engine of a SET_MODE to `target` has ended it, with `ERR` telling whether the last mode byte is the target's. -/
structure SetModeEnded (target : Target) (t : State) : Prop where
  idle : t.flags.busy = false
  confirmed : bufAt t 1 = modeByteOf target → t.flags.err = .noError
  timedOut : bufAt t 1 ≠ modeByteOf target → t.flags.err = .negotiationTimeout

/-- Attempt `a` of at most `k` attempts of a SET_MODE to `target` is to be made. -/
structure AttemptDue (target : Target) (k a : Nat) (s : State) : Prop where
  sound : Sound s
  op : s.seq.op = .setMode
  neg : s.seq.neg = .enteringConfig
  target : s.seq.target = target
  capped : s.params.retryCap = some k
  attempt : s.seq.attempt = a

/-- An attempt ends the operation, or the next one is due, which the cap still allows. -/
theorem AttemptDue.made {target : Target} {k a : Nat} {s : State} (h : AttemptDue target k a s)
    (hreset : ∀ j, j < transactionsPerAttempt s.params target → resetAt s j = none) :
    ∃ t, runSteps (transactionsPerAttempt s.params target) s = .next t ∧
      (SetModeEnded target t ∨
        (a < k ∧ AttemptDue target k (a + 1) t ∧ t.params = s.params ∧
          ∀ j, resetAt t j = resetAt s (transactionsPerAttempt s.params target + j))) := by
  obtain ⟨hs, hop, hneg, rfl, hcap, rfl⟩ := h
  obtain ⟨u, hpass, hrun, huop, hutarget, -, huattempt⟩ := negotiationPass_done s hs.params
  obtain ⟨-, -, huflags, huparams, -⟩ := hrun.unchanged
  have henv := hrun.env
  obtain ⟨hsteps, hsound⟩ :=
    (negotiationPass_run hop hneg hs.params.resyncPositive).runSteps hs hreset
  have hnoError : u.flags.err = .noError := by
    rw [huflags]; exact hs.errBusy (hs.busy_of_op hop (by decide))
  have hcapU : s.params.retryCap = some k → u.params.retryCap = some k := fun h => huparams ▸ h
  have hconfirmed : targetConfirmed u = true ↔ bufAt u 1 = modeByteOf s.seq.target := by
    rw [targetConfirmed_iff, hutarget]
  rw [hpass] at hsteps hsound
  refine ⟨_, hsteps, ?_⟩
  obtain ⟨hyes, hc⟩ | ⟨hno, -, hc⟩ | ⟨-, hbelow, hc⟩ := confirmCheck_cases u <;> rw [hc] at hsound ⊢
  · exact .inl ⟨rfl, fun _ => hnoError, fun h => absurd (hconfirmed.mp hyes) h⟩
  · exact .inl ⟨rfl, fun h => absurd (hconfirmed.mpr h) (Bool.eq_false_iff.mp hno), fun _ => rfl⟩
  · have hlt : s.seq.attempt < k := by
      rw [← huattempt]
      exact Nat.lt_of_not_le (mt (capReached_iff (hcapU hcap)).mpr (Bool.eq_false_iff.mp hbelow))
    refine .inr ⟨hlt, ⟨hsound, huop.trans hop, rfl, hutarget, hcapU hcap, ?_⟩, huparams, fun j => ?_⟩
    · simp [withHost, hcapU hcap, huattempt]
    · simp [resetAt, withHost]

/-- With `d` attempts to come after this one, SET_MODE ends within `d + 1`. -/
theorem AttemptDue.ends (d : Nat) {target : Target} {k a : Nat} {s : State} (h : AttemptDue target k a s)
    (hleft : a + d = k)
    (hreset : ∀ j, j < (d + 1) * transactionsPerAttempt s.params target → resetAt s j = none) :
    ∃ n t, n ≤ (d + 1) * transactionsPerAttempt s.params target ∧ runSteps n s = .next t ∧ SetModeEnded target t := by
  induction d generalizing s a with
  | zero =>
    obtain ⟨t, hsteps, hend | ⟨hlt, -⟩⟩ := h.made fun j hj => hreset j (by omega)
    · exact ⟨_, t, by omega, hsteps, hend⟩
    · omega
  | succ d ih =>
    rw [Nat.succ_mul] at hreset ⊢
    obtain ⟨u, hsteps, hend | ⟨-, hdue, hparams, hshift⟩⟩ := h.made fun j hj => hreset j (by omega)
    · exact ⟨_, u, by omega, hsteps, hend⟩
    · obtain ⟨n, t, hn, hrest, hend⟩ := ih hdue (by omega) fun j hj => by
        rw [hshift]
        rw [hparams] at hj
        exact hreset _ (by omega)
      rw [hparams] at hn
      exact ⟨transactionsPerAttempt s.params target + n, t, by omega, (runSteps_add hsteps n).trans hrest, hend⟩

/-- Settles O42: acceptance makes the first of `k` attempts due (R7 has `k` ≥ 1), and each attempt that does not end the
operation counts one. -/
theorem retryCapEndsSetMode : Obligations.RetryCapEndsSetMode := by
  intro s target lock k h hidle hinit hcap hreset
  have hexec := execSetMode_of_idle target lock hidle hinit
  have hsound := h.startSetMode target lock hinit
  rw [startSetMode_eq] at hexec hsound
  obtain ⟨d, rfl⟩ := Nat.exists_eq_add_of_le' (h.params.capPositive k hcap)
  have hdue : AttemptDue target (d + 1) 1 _ := ⟨hsound, rfl, rfl, rfl, hcap, by simp [hcap]⟩
  obtain ⟨n, t, hn, hsteps, hidle', hyes, hno⟩ := hdue.ends d (Nat.add_comm 1 d) hreset
  exact ⟨_, n, t, hexec, hn, hsteps, hidle', hyes, hno⟩

end Sys2Proof
end

section
/-!
PROOFS. What no operation undoes (`Continues`): the parameters, the history, `INITIALISED`, and `BUF` where no pin event
happens (R38, R43, R52, R62); and the reset input (R210 to R213).
-/

namespace Sys2Proof.Machine

/-- What holds between the states before and after anything the engine does short of a reset: it writes no parameter,
takes no input of the host, keeps `INITIALISED`, adds to the history, and writes `BUF` only with a pin event. -/
structure Continues (s t : State) : Prop where
  params : t.params = s.params
  powerOns : t.powerOns = s.powerOns
  hostIn : t.env.hostIn = s.env.hostIn
  resetIn : t.env.resetIn = s.env.resetIn
  initialised : s.flags.initialised = true → t.flags.initialised = true
  trace : s.trace <:+ t.trace
  buf : t.trace = s.trace → t.buf = s.buf

section
variable {s t u : State}

/-! ### Putting operations together -/

theorem Continues.refl (s : State) : Continues s s :=
  ⟨rfl, rfl, rfl, rfl, id, List.suffix_rfl, fun _ => rfl⟩

theorem Continues.trans (first : Continues s u) (second : Continues u t) : Continues s t where
  params := second.params.trans first.params
  powerOns := second.powerOns.trans first.powerOns
  hostIn := second.hostIn.trans first.hostIn
  resetIn := second.resetIn.trans first.resetIn
  initialised := second.initialised ∘ first.initialised
  trace := first.trace.trans second.trace
  buf heq := by
    have hmid : u.trace = s.trace := ((heq ▸ second.trace).sublist.antisymm first.trace.sublist)
    exact (second.buf (heq.trans hmid.symm)).trans (first.buf hmid)

/-- No pin event and no byte of `BUF` written. -/
theorem Continues.quiet (h : t = { s with
    lines := t.lines, xchg := t.xchg, framer := t.framer, seq := t.seq, out := t.out, cache := t.cache,
    flags := t.flags }) (hinit : s.flags.initialised = true → t.flags.initialised = true) : Continues s t := by
  rw [h]
  exact ⟨rfl, rfl, rfl, rfl, hinit, List.suffix_rfl, fun _ => rfl⟩

/-- Events performed, whatever they write of `BUF`. -/
theorem Continues.events (hparams : t.params = s.params) (hpower : t.powerOns = s.powerOns)
    (hhost : t.env.hostIn = s.env.hostIn) (hreset : t.env.resetIn = s.env.resetIn) (hflags : t.flags = s.flags)
    {e : PinEvent} {events : List PinEvent} (htrace : t.trace = e :: events ++ s.trace) : Continues s t where
  params := hparams
  powerOns := hpower
  hostIn := hhost
  resetIn := hreset
  initialised := hflags ▸ id
  trace := htrace ▸ List.suffix_append _ _
  buf heq := by
    have hlen := congrArg List.length (htrace.symm.trans heq)
    simp at hlen
    omega

/-! ### The registers of the sequencer and the flags -/

theorem continues_endOp : Continues s (endOp s) := .quiet rfl id

theorem continues_setNeg (n : Neg) : Continues s (setNeg n s) := .quiet rfl id

theorem continues_setSubSeq (q : SubSeq) : Continues s (setSubSeq q s) := .quiet rfl id

theorem continues_setSlot (k : Fin 12) : Continues s (setSlot k s) := .quiet rfl id

theorem continues_setSync (n : Nat) : Continues s (setSync n s) := .quiet rfl id

theorem continues_startAttempt : Continues s (startAttempt s) := .quiet rfl id

theorem continues_clearAttempts : Continues s (clearAttempts s) := by
  unfold clearAttempts
  split
  · exact .quiet rfl id
  · exact .refl s

/-! ### The pin events and the transactions -/

theorem continues_wr (line : OutLine) (l : Level) : Continues s (wr line l s) :=
  .events rfl rfl rfl rfl rfl (events := []) rfl

theorem continues_wait (kind : WaitKind) : Continues s (wait kind s) :=
  .events rfl rfl rfl rfl rfl (events := []) rfl

theorem continues_exchange (b : Byte) : Continues s (exchange b s) := by
  rw [exchange_eq]
  exact .events rfl rfl rfl rfl rfl (events := _) rfl

theorem continues_exchangeAt (i : Nat) : Continues s (exchangeAt s i) := by
  rw [exchangeAt_eq]
  exact .events rfl rfl rfl rfl rfl (events := _) rfl

theorem continues_foldl_exchangeAt (l : List Nat) : Continues s (l.foldl exchangeAt s) :=
  List.foldlRecOn l exchangeAt (.refl s) fun _ h i _ => h.trans (continues_exchangeAt i)

theorem continues_frame : Continues s (frame s) := by
  have hassert : Continues s (wait .att (wr .att false s)) := (continues_wr .att false).trans (continues_wait .att)
  have hhead := (hassert.trans (continues_exchangeAt 0)).trans (continues_exchangeAt 1)
  unfold frame
  dsimp only
  generalize exchangeAt (exchangeAt (wait .att (wr .att false s)) 0) 1 = u at hhead
  have hlen : Continues u { u with framer := { u.framer with recvSize := responseLength (bufAt u 1) } } :=
    .quiet rfl id
  have hbody := (hhead.trans hlen).trans (continues_foldl_exchangeAt (bodyIndices (responseLength (bufAt u 1))))
  exact ((hbody.trans (continues_wr .att true)).trans (continues_wait .att)).trans (.quiet rfl id)

theorem continues_send (cmd : List Byte) : Continues s (send cmd s) :=
  (Continues.quiet (t := latchCommand cmd s) rfl id).trans continues_frame

theorem continues_trySend {cmd : List Byte} (h : trySend cmd s = .next t) : Continues s t := by
  obtain ⟨-, -, rfl⟩ := trySend_eq_next.mp h
  exact continues_send cmd

theorem continues_syncBurst (n : Nat) : Continues s (syncBurst n s) := by
  induction n generalizing s with
  | zero => exact continues_setSync 0
  | succ n ih => exact ((continues_setSync (n + 1)).trans (continues_send _)).trans ih

/-! ### The rows of the small-step form -/

theorem continues_bitPhaseStep : Continues s (bitPhaseStep s) := by
  unfold bitPhaseStep
  split
  · exact .refl s
  · exact (continues_wr _ _).trans (.quiet rfl id)
  · exact (continues_wr _ _).trans (.quiet rfl id)
  · exact (continues_wait _).trans (.quiet rfl id)
  · exact .events rfl rfl rfl rfl rfl (events := []) rfl
  · exact (continues_wr _ _).trans (.quiet rfl id)
  · refine (continues_wait .half).trans ?_
    dsimp only
    split <;> exact .quiet rfl id
  · exact (continues_wr _ _).trans (.quiet rfl id)
  · exact (continues_wait _).trans (.quiet rfl id)

theorem continues_framerPhaseStep : Continues s (framerPhaseStep s) := by
  unfold framerPhaseStep
  split
  · exact .refl s
  · exact ((continues_wr _ _).trans (continues_wait _)).trans (.quiet rfl id)
  · exact .quiet rfl id
  · exact .quiet rfl id
  · exact .quiet rfl id
  · exact .quiet rfl id
  · exact ((continues_wr _ _).trans (continues_wait _)).trans (.quiet rfl id)

/-- The return of an EXCHANGE stores a byte: it comes with the settle wait of its row (R123). -/
theorem continues_framerReturn : Continues s (framerReturn (wait .byte s)) := by
  have hstore : Continues s (storeBuf s.framer.idx s.xchg.rx (wait .byte s)) :=
    .events rfl rfl rfl rfl rfl (events := []) rfl
  unfold framerReturn
  dsimp only
  split
  · exact hstore
  · exact hstore
  · exact hstore.trans (.quiet rfl id)
  · exact hstore.trans (.quiet rfl id)
  · exact hstore
  · split <;> exact hstore.trans (.quiet rfl id)
  · exact hstore

theorem continues_phaseStep : Continues s (phaseStep s) := by
  unfold phaseStep
  split
  · exact continues_framerPhaseStep
  · rename_i hbx
    dsimp only
    split
    · exact continues_bitPhaseStep
    · have hrow : bitPhaseStep s = wait .byte (setBx .idle s) := by simp only [bitPhaseStep, hbx]; rfl
      rw [hrow]
      exact (Continues.quiet (t := setBx .idle s) rfl id).trans continues_framerReturn
  · exact continues_bitPhaseStep

/-! ### The moves of the sequencer, and the Decoder -/

theorem continues_confirmCheck : Continues s (confirmCheck s) := by
  obtain ⟨hframe, -, -, -, hinit⟩ := confirmCheck_frame s
  exact .quiet (by rw [hframe]) (hinit ▸ id)

theorem continues_negotiationAdvance : Continues s (negotiationAdvance s) := by
  obtain ⟨-, hc⟩ | hc | ⟨q, hc, -⟩ := negotiationAdvance_cases s <;> rw [hc]
  · exact continues_endOp
  · exact (continues_setSync 0).trans continues_confirmCheck
  · exact .quiet rfl id

theorem continues_finishPoll : Continues s (finishPoll s) := by
  unfold finishPoll
  split
  · exact .quiet rfl id
  · exact .refl s

theorem continues_burstAdvance : Continues s (burstAdvance s) := by
  unfold burstAdvance
  dsimp only
  split <;> exact .quiet rfl id

theorem continues_advance : Continues s (advance s) := by
  unfold advance
  split
  · exact .refl s
  · exact continues_burstAdvance
  · exact continues_finishPoll
  · exact continues_negotiationAdvance

theorem continues_compareReply : Continues s (compareReply s) := by
  obtain ⟨-, hc⟩ | ⟨-, -, hc⟩ | ⟨-, -, hc⟩ := compareReply_cases s <;> rw [hc] <;> exact .quiet rfl id

theorem continues_advanceTransaction : Continues s (advanceTransaction s) := by
  unfold advanceTransaction
  split
  · exact continues_compareReply
  · exact continues_advance

theorem continues_decodeReply : Continues s (decodeReply s) := by
  obtain ⟨-, hd⟩ | ⟨-, hd⟩ | ⟨-, -, -, hd⟩ | ⟨-, -, -, hd⟩ := decodeReply_cases s <;> rw [hd] <;>
    exact .quiet rfl id

theorem continues_layoutOther (m : Byte) : Continues s (layoutOther m s) := by
  unfold layoutOther
  split <;> exact .quiet rfl id

/-! ### The host operations and the handshake -/

theorem continues_execInit (h : execInit s = .next t) : Continues s t := by
  unfold execInit at h
  split at h <;> cases h
  · exact .refl s
  · have haccept : Continues s (accept .init s) := .quiet rfl id
    have hcfg : Continues (accept .init s) (cfg (accept .init s)) := .events rfl rfl rfl rfl rfl (events := []) rfl
    have hflags : Continues (cfg (accept .init s)) (initFlags (cfg (accept .init s))) := .quiet rfl fun _ => rfl
    exact (((haccept.trans hcfg).trans hflags).trans (continues_syncBurst _)).trans continues_endOp

theorem continues_execPoll (h : execPoll s = .next t) : Continues s t := by
  unfold execPoll at h
  split at h
  · cases h; exact .refl s
  split at h <;> cases h
  have haccept : Continues s (accept .poll s) := .quiet rfl id
  have hcompare := (haccept.trans (continues_send (pollBytes s.params))).trans continues_compareReply
  rw [runPoll_eq, concludePoll]
  split
  · exact (hcompare.trans continues_decodeReply).trans continues_finishPoll
  · exact hcompare

theorem continues_execSetMode {target : Target} {lock : Bool} (h : execSetMode target lock s = .next t) :
    Continues s t := by
  unfold execSetMode at h
  split at h <;> cases h
  · exact .refl s
  · rw [startSetMode_eq]; exact .quiet rfl id

theorem continues_pressureSlot (k : Fin 12) : Continues s (pressureSlot s k) :=
  ((((continues_setSlot k).trans (continues_setSubSeq .en)).trans (continues_send _)).trans
    (continues_setSubSeq .cfg)).trans (continues_send _)

theorem continues_negotiationPass : Continues s (negotiationPass s) := by
  have hmode : Continues s (modeSent s) :=
    (((continues_send cfgEnterBytes).trans (continues_setNeg .settingMode)).trans (continues_setSubSeq .mode)).trans
      (continues_send _)
  have hconf : Continues s (configured s) := by
    unfold configured
    split
    · exact hmode.trans
        (List.foldlRecOn slotOrder pressureSlot (.refl _) fun _ h k _ => h.trans (continues_pressureSlot k))
    · exact hmode
  have hexit := (hconf.trans (continues_setNeg .exitingConfig)).trans (continues_send cfgExitBytes)
  exact ((hexit.trans (continues_setNeg .resyncing)).trans (continues_syncBurst _)).trans continues_confirmCheck

theorem continues_execNegotiate (h : execNegotiate s = .next t) : Continues s t := by
  unfold execNegotiate at h
  split at h
  · split at h <;> cases h
    exact (continues_clearAttempts.trans continues_startAttempt).trans continues_negotiationPass
  · cases h

/-! ### Instructions and cycles -/

theorem continues_exec {i : Instr} (h : exec i s = .next t) : Continues s t := by
  cases i with
  | init => exact continues_execInit h
  | poll => exact continues_execPoll h
  | setMode => exact continues_execSetMode h
  | hostReserved => cases h; exact .refl s
  | pollCmd => exact continues_trySend h
  | cfgEnter => exact continues_trySend h
  | cfgExit => exact continues_trySend h
  | setModeCmd => exact continues_trySend h
  | pressEn => exact continues_trySend h
  | pressCfg => exact continues_trySend h
  | send => exact continues_trySend h
  | modeDigital => cases h; exact .quiet rfl id
  | modeAnalog => cases h; exact .quiet rfl id
  | modePressure => cases h; exact .quiet rfl id
  | modeConfig => cases h; exact continues_layoutOther _
  | modeOther => cases h; exact continues_layoutOther _
  | decode => cases h; exact continues_decodeReply
  | frame =>
    obtain ⟨-, rfl⟩ := execFrame_eq_next.mp h
    exact continues_frame
  | exchange b =>
    obtain ⟨-, rfl⟩ := execExchange_eq_next.mp h
    exact continues_exchange b
  | negotiate => exact continues_execNegotiate h

theorem continues_transactionStep (h : transactionStep s = .next t) : Continues s t := by
  unfold transactionStep at h
  dsimp only at h
  split at h
  · split at h
    · cases h
    · split at h <;> cases h
      · exact continues_phaseStep.trans continues_advanceTransaction
      · exact continues_phaseStep
  · cases h

theorem continues_idleStep (h : idleStep s = .next t) : Continues s t := by
  unfold idleStep at h
  split at h
  · split at h <;> cases h
    exact continues_endOp
  · cases h; exact .refl s

/-- The one place where the host's inputs pass is the cycle itself. -/
theorem continues_cycle (h : cycle s = .next t) : Continues (takeInputs s) t := by
  obtain ⟨-, hrow⟩ | ⟨-, -, i, u, -, hexec, rfl⟩ | ⟨-, -, i, -, hexec⟩ | ⟨-, -, hidle⟩ := cycle_cases h
  · exact continues_transactionStep hrow
  · exact (continues_exec hexec).trans continues_advance
  · exact continues_exec hexec
  · exact continues_idleStep hidle

end

end Sys2Proof.Machine

namespace Sys2Proof

open Sys2Proof.Machine

/-! ### What every step keeps -/

/-- Settles O49: a cycle writes no parameter, and a reset takes over those it finds (R43, R211). -/
theorem parametersNeverChange : Obligations.ParametersNeverChange := by
  intro s t hstep
  obtain ⟨-, hc⟩ | ⟨-, rfl⟩ | ⟨n, u, -, hc, rfl⟩ := step_cases hstep
  · exact (continues_cycle hc).params
  · rfl
  · exact (continues_cycle hc).params

/-- Settles O50: a cycle only adds events, and where a reset lands some of them stand on the trace before the step. -/
theorem traceOnlyGrows : Obligations.TraceOnlyGrows := by
  intro s t hstep
  obtain ⟨-, hc⟩ | ⟨-, rfl⟩ | ⟨n, u, -, hc, rfl⟩ := step_cases hstep
  · exact (continues_cycle hc).trace
  · exact List.suffix_rfl
  · exact List.suffix_append _ _

/-- Settles O52. -/
theorem initialisedUntilReset : Obligations.InitialisedUntilReset := by
  intro s t hreset hinit hstep
  exact (continues_cycle (step_eq_cycle hreset ▸ hstep)).initialised hinit

/-- Settles O53. -/
theorem bufferWrittenOnlyOnTheWire : Obligations.BufferWrittenOnlyOnTheWire := by
  intro s t hreset hstep htrace
  exact (continues_cycle (step_eq_cycle hreset ▸ hstep)).buf htrace

/-! ### The reset input -/

/-- Of the `events` a step performed, the newest first, a reset after `n` of them leaves the `n` oldest. -/
theorem landReset_eq_of_events {n : Nat} {s u : State} {events : List PinEvent} (h : u.trace = events ++ s.trace) :
    landReset n s u =
      hardReset
        { u with
          trace := events.drop (events.length - n) ++ s.trace
          env :=
            { u.env with
              dataIn := s.env.dataIn.drop ((events.drop (events.length - n)).countP PinEvent.isSample) } } := by
  have hseen : (u.trace.drop (events.length - n)).take (min n events.length) = events.drop (events.length - n) := by
    rw [h, List.drop_append_of_le_length (Nat.sub_le _ _)]
    exact List.take_left' (by rw [List.length_drop]; omega)
  have hdone : u.trace.length - s.trace.length = events.length := by rw [h, List.length_append]; omega
  unfold landReset
  rw [hdone]
  dsimp only
  rw [hseen]

/-- A reset on the way to `u`, wherever it lands, is the first `n` events and the reset state. -/
theorem step_eq_landReset {s u : State} {n : Nat} (hreset : resetAt s 0 = some n) (hcycle : cycle s = .next u) :
    ∃ r, step s = .next r ∧ ∀ events, u.trace = events ++ s.trace →
      r.trace = events.drop (events.length - n) ++ s.trace ∧
      r.env = { dataIn := s.env.dataIn.drop ((events.drop (events.length - n)).countP PinEvent.isSample)
                hostIn := s.env.hostIn.tail
                resetIn := s.env.resetIn.tail } ∧
      r = { State.resetWith s.params with env := r.env, trace := r.trace, powerOns := s.powerOns + 1 } := by
  have hcont := continues_cycle hcycle
  cases n with
  | zero =>
    refine ⟨_, step_eq_reset hreset, fun events _ => ?_⟩
    simp [hardReset, takeInputs]
  | succ n =>
    refine ⟨landReset (n + 1) s u, by rw [step_eq_land hreset, hcycle]; rfl, fun events h => ?_⟩
    rw [landReset_eq_of_events h]
    refine ⟨rfl, ?_, ?_⟩
    · simp [hcont.hostIn, hcont.resetIn]
    · simp [hardReset, hcont.params, hcont.powerOns]

/-- Settles O54: the events of the step are what its trace has beyond the old one, and the reset keeps the oldest `n`. -/
theorem resetCutsAtAnyEvent : Obligations.ResetCutsAtAnyEvent := by
  intro s u n hreset hcycle
  obtain ⟨r, hstep, hland⟩ := step_eq_landReset hreset hcycle
  obtain ⟨events, hevents⟩ := (continues_cycle hcycle).trace
  obtain ⟨htrace, henv, hstate⟩ := hland events hevents.symm
  have hlen : u.trace.length - s.trace.length = events.length := by
    rw [← hevents, List.length_append, takeInputs_trace]; omega
  refine ⟨r, hstep, ?_, ?_, ?_, hstate⟩
  · rw [htrace, ← hevents]
    exact ⟨events.take (events.length - n), by rw [← List.append_assoc, List.take_append_drop]; rfl⟩
  · rw [htrace, hlen, List.length_append, List.length_drop]; omega
  · rw [henv, htrace, List.countP_append, Nat.add_sub_cancel]

@[simp] theorem resetWith_params (p : Params) : (State.resetWith p).params = p := rfl

/-- Settles O58: each held step is the reset of the state the one before it left. -/
theorem heldResetKeepsResetState : Obligations.HeldResetKeepsResetState := by
  intro s n hpos hheld
  induction n, hpos using Nat.le_induction generalizing s with
  | base =>
    rw [runSteps_succ (step_eq_reset (hheld 0 Nat.one_pos))]
    simp [runSteps, hardReset, takeInputs]
  | succ n hpos ih =>
    have hshift : ∀ k, k < n → resetAt (hardReset (takeInputs s)) k = some 0 := fun k hk =>
      (resetAt_takeInputs s k).trans (hheld (k + 1) (Nat.succ_lt_succ hk))
    rw [runSteps_succ (step_eq_reset (hheld 0 (Nat.succ_pos n))), ih _ hshift]
    simp [hardReset, takeInputs, Nat.add_assoc, Nat.add_comm 1 n]

end Sys2Proof
end

section
/-!
PROOFS. The step and the host: ignored requests (R76, R180, R181), what a step runs (R75), what the host reads (R68), the
pressure blind spot (R225), a POLL without a controller (R227), and who writes the outputs (R33 to R39).
-/

namespace Sys2Proof

open Sys2Proof.Machine

/-! ### Ignored requests -/

/-- Settles O35. -/
theorem ignoredRequestsDoNothing : Obligations.IgnoredRequestsDoNothing := by
  refine fun s => ⟨fun hbusy => ⟨?_, ?_, fun t l => ?_⟩, fun hinit => ⟨?_, fun t l => ?_⟩, fun w => rfl⟩
  · simp [execInit, hbusy]
  · simp [execPoll, hbusy]
  · simp [execSetMode, hbusy]
  · simp [execPoll, hinit]
  · simp [execSetMode, hinit]

/-- Settles O36: the cycle runs the presented word, which answers the state it found. -/
theorem ignoredRequestSteps : Obligations.IgnoredRequestSteps := by
  intro s w rest h hidle hreset hhost hignored
  have hpresented : presented s = some w := by simp [presented, hhost]
  have hexec : exec (decodeHost w) (takeInputs s) = .next (takeInputs s) := by
    obtain hreserved | ⟨hinit, hopc⟩ := hignored
    · rw [decodeHost_of_reserved hreserved]; rfl
    · exact exec_of_uninitialised hinit hopc
  rw [step_eq_cycle hreset, cycle_of_idle h.boundary hidle (fetch_of_presented hidle hpresented), hexec]
  simp [takeInputs, hhost]

/-- Settles O37: a busy engine reads the presentation nowhere, and it passes with the step. -/
theorem busyEngineIgnoresRequest : Obligations.BusyEngineIgnoresRequest := by
  intro s w rest hbusy hhost
  have htaken : takeInputs { s with env := { s.env with hostIn := none :: rest } } = takeInputs s := by
    simp [takeInputs, hhost]
  have hfetch : fetch { s with env := { s.env with hostIn := none :: rest } } = fetch s := by
    simp only [fetch, hbusy, if_true]
    rfl
  have hcycle : cycle s = cycle { s with env := { s.env with hostIn := none :: rest } } := by
    rw [cycle, cycle, htaken, hfetch]
    rfl
  unfold step cycleWithReset
  rw [htaken, ← hcycle]
  rfl

/-! ### What a step runs -/

/-- Settles O48. -/
theorem stepRunsDecodedInstruction : Obligations.StepRunsDecodedInstruction := by
  intro s hfr hbx hreset
  have hb : atBoundary s = true := by simp [atBoundary, hfr, hbx]
  rw [step_eq_cycle hreset]
  refine ⟨fun w rest hidle hhost => ?_, fun i t hbusy hfetch hexec => cycle_of_busy hb hbusy hfetch hexec⟩
  have hpresented : presented s = some w := by simp [presented, hhost]
  rw [cycle_of_idle hb hidle (fetch_of_presented hidle hpresented)]
  simp [takeInputs, hhost]

/-! ### What the host reads -/

/-- Settles O55: the view is nothing while busy, and otherwise the registers, with the axes and the intensities behind
their flags. -/
theorem hostSeesNothingWhileBusy : Obligations.HostSeesNothingWhileBusy := by
  refine fun s => ⟨fun hbusy => ⟨if_pos hbusy, fun i => if_pos hbusy⟩, fun hidle => ?_⟩
  have hnot : ¬s.flags.busy = true := by simp [hidle]
  exact ⟨⟨_, if_neg hnot, rfl, rfl, rfl, rfl, rfl, fun h => if_pos h, fun h => if_neg (by simp [h]), fun h => if_pos h,
    fun h => if_neg (by simp [h])⟩, fun i => if_neg hnot⟩

/-! ### POLLs with a known reply -/

/-- Settles O32: the reply's first six payload bytes are the cached ones, so the POLL ends before DECODE; the transaction
has stored all 21 bytes by then. -/
theorem pressureBlindSpot : Obligations.PressureBlindSpot := by
  intro s hidle hready hdetect hvalid hprev hmode hslice
  obtain ⟨u, t, hdone, hexec, -, -, -, -, hframe, -, hlisted⟩ :=
    pollRunsToItsEnd s hidle (initialised_of_linesReady hready) hready
  have hlen : replyLength s.env.dataIn = 21 := by rw [replyLength, hmode]; rfl
  have hread : ∀ i, i < 21 → Memory.read u.buf i = some (replyByte s.env.dataIn i) := fun i hi =>
    hdone.replies i (hlen.symm ▸ hi)
  have hmodeU : bufAt u 1 = 0x79 := (bufAt_of_read (hread 1 (by decide))).trans hmode
  have hsame : SameReply s.cache u :=
    ⟨hvalid, hprev.trans hmodeU.symm, fun j _ => (hslice j).trans (bufAt_of_read (hread (3 + j) (by omega))).symm⟩
  obtain ⟨-, hkeep, -⟩ := hlisted fun hstrict => hstrict.2.2.2 hmodeU
  obtain ⟨hchanged, hout⟩ := hkeep ⟨hdetect, hsame⟩
  refine ⟨t, hexec, hchanged, hout, fun k hk => ?_⟩
  rw [hframe]
  exact hread (9 + k) (by omega)

/-- Settles O33: every byte is 0xFF, which as a mode byte falls through to the digital layout. -/
theorem noControllerPoll : Obligations.NoControllerPoll := by
  intro s hidle hready hsilent hlenient
  obtain ⟨u, t, hdone, hexec, -, -, -, -, hframe, -, hlisted⟩ :=
    pollRunsToItsEnd s hidle (initialised_of_linesReady hready) hready
  have hdata : (accept .poll s).env.dataIn = [] := hsilent
  have hread : ∀ i, i < 33 → Memory.read u.buf i = some 0xFF := fun i hi => by
    rw [hdone.replies i (by rw [hdata, replyLength_nil]; exact hi), hdata, replyByte_nil]
  have hbuf : ∀ i, i < 33 → bufAt u i = 0xFF := fun i hi => bufAt_of_read (hread i hi)
  obtain ⟨-, hkeep, hdecode⟩ := hlisted (by simp [hlenient])
  refine ⟨t, hexec, ?_, fun i hi => ?_, fun hchanged => ?_⟩
  · rw [hframe]; exact hdone.recvSize.trans (by rw [hdata, replyLength_nil])
  · rw [hframe]; exact hread i hi
  · have hnew : ¬(s.params.changeDetect = true ∧ SameReply s.cache u) := fun hsame => by
      simp [(hkeep hsame).1] at hchanged
    obtain ⟨-, d, hd, hout⟩ := hdecode hnew
    obtain rfl : decodeReply u = d := by simpa using hd
    have hdigital : decodeReply u = layoutDigital u := by
      rw [decodeReply, modeByte, hbuf 1 (by decide)]
      exact layoutOther_of_reference 0xFF (by rw [hdone.unchanged.2.2.2.2.1]; exact hlenient)
    have hfield : buttonField u = 0xFFFF := by rw [buttonField, hbuf 3 (by decide), hbuf 4 (by decide)]; rfl
    rw [hout, hdigital, layoutDigital_out, hfield]
    exact ⟨rfl, rfl⟩

/-! ### Who writes the outputs -/

/-- The outputs, the cache and `CHANGED` are as they were. -/
structure SameOutputs (s t : State) : Prop where
  out : t.out = s.out
  cache : t.cache = s.cache
  changed : t.flags.changed = s.flags.changed

theorem send_sameOutputs (cmd : List Byte) (s : State) : SameOutputs s (send cmd s) :=
  ⟨send_out s cmd, send_cache s cmd, congrArg Flags.changed (send_flags cmd s)⟩

theorem burstAdvance_sameOutputs (s : State) : SameOutputs s (burstAdvance s) := by
  unfold burstAdvance
  dsimp only
  split <;> exact ⟨rfl, rfl, rfl⟩

theorem confirmCheck_sameOutputs (s : State) : SameOutputs s (confirmCheck s) := by
  obtain ⟨-, hc⟩ | ⟨-, -, hc⟩ | ⟨-, -, hc⟩ := confirmCheck_cases s <;> rw [hc] <;> exact ⟨rfl, rfl, rfl⟩

/-- No move of the handshake touches the outputs (R140). -/
theorem negotiationAdvance_sameOutputs (s : State) : SameOutputs s (negotiationAdvance s) := by
  obtain ⟨-, hc⟩ | hc | ⟨q, hc, -⟩ := negotiationAdvance_cases s <;> rw [hc]
  · exact ⟨rfl, rfl, rfl⟩
  · obtain ⟨hout, hcache, hchanged⟩ := confirmCheck_sameOutputs (setSync 0 s)
    exact ⟨hout, hcache, hchanged⟩
  · exact ⟨rfl, rfl, rfl⟩

theorem SameOutputs.trans {s t u : State} (first : SameOutputs s u) (second : SameOutputs u t) : SameOutputs s t :=
  ⟨second.out.trans first.out, second.cache.trans first.cache, second.changed.trans first.changed⟩

/-- A cycle of a sound engine that is not POLL's leaves the outputs, or is INIT's and clears the validity flags. -/
theorem outputs_of_cycle {s t : State} (h : Sound s) (hcycle : cycle s = .next t) (hfetch : fetch s ≠ some .poll)
    (hop : s.seq.op ≠ .poll) :
    SameOutputs s t ∨
      (fetch s = some .init ∧ t.out = { s.out with intValid := false, axisFresh := false } ∧
        t.cache = { s.cache with prevValid := false }) := by
  obtain ⟨-, hc⟩ | ⟨hidle, hf, hc⟩ | ⟨-, -, hf, -⟩ | ⟨target, lock, -, -, hc⟩ | ⟨-, hc⟩ | ⟨hop', -⟩ |
      ⟨-, hc⟩ :=
    h.cycle_cases
  · obtain rfl : takeInputs s = t := by simpa [hc] using hcycle
    exact .inl ⟨rfl, rfl, rfl⟩
  · obtain ⟨u, hexec, -, -, -, hout, hcache, -⟩ := initConfiguresAndPolls (takeInputs s) hidle
    have hinit : exec .init (takeInputs s) = cycle s := by
      rw [hc, exec_init, execInit, takeInputs_flags, if_neg (by simp [hidle])]
    obtain rfl : u = t := by simpa [← hinit, hexec] using hcycle
    exact .inr ⟨hf, hout, hcache⟩
  · exact absurd hf hfetch
  · obtain rfl : startSetMode target lock (takeInputs s) = t := by simpa [hc] using hcycle
    rw [startSetMode_eq]
    exact .inl ⟨rfl, rfl, rfl⟩
  · obtain rfl : burstAdvance (send (pollBytes s.params) (takeInputs s)) = t := by simpa [hc] using hcycle
    obtain ⟨hout, hcache, hchanged⟩ :=
      (send_sameOutputs (pollBytes s.params) (takeInputs s)).trans (burstAdvance_sameOutputs _)
    exact .inl ⟨hout, hcache, hchanged⟩
  · exact absurd hop' hop
  · obtain rfl : handshakeStep (takeInputs s) = t := by simpa [hc] using hcycle
    obtain ⟨hout, hcache, hchanged⟩ :=
      (send_sameOutputs (handshakeCommand (takeInputs s)) (takeInputs s)).trans (negotiationAdvance_sameOutputs _)
    exact .inl ⟨hout, hcache, hchanged⟩

/-- Settles O51. -/
theorem outputsWrittenOnlyByPoll : Obligations.OutputsWrittenOnlyByPoll := by
  intro s t h hreset hstep hfetch hop
  obtain ⟨hout, hcache, hchanged⟩ | ⟨hinit, hout, hcache⟩ :=
    outputs_of_cycle h (step_eq_cycle hreset ▸ hstep) hfetch hop
  · rw [hout, hcache, hchanged]
    exact ⟨rfl, rfl, rfl, rfl, rfl, fun _ => ⟨rfl, rfl, rfl⟩⟩
  · rw [hout, hcache]
    exact ⟨rfl, rfl, rfl, rfl, rfl, fun hno => absurd hinit hno⟩

end Sys2Proof
end
